-- ==== Sys2Proof/Word.lean ====
section
/-! DEFINITION. The word types of the LSE block and their plainest arithmetic (spec/00_scope.md R9). -/

namespace Sys2Proof

/-- A byte: 8 bits, bit 7 the most significant (R9). -/
abbrev Byte := BitVec 8

/-- A request word of the request port (R70, R71). -/
abbrev Req := BitVec 64

/-- A glyph pattern `G[6:0]` (R84). -/
abbrev Glyph := BitVec 7

/-- An index of the display buffer, 0 to 17 (R20, R33 (a)): an index outside that range cannot be
written. -/
abbrev Index := Fin 18

/-- One bit of the display buffer: the index of its byte and its number in that byte. The bit sets
of rule R8 (c) are lists of these. -/
abbrev BitPos := Index × Nat

/-- `clampi(v, lo, hi)` of R10, over the mathematical integers. -/
def clampi (v lo hi : Int) : Int :=
  if v < lo then lo else if v > hi then hi else v

end Sys2Proof
end

