-- ==== Sys2Proof/Syntax.lean ====
section
/-! DEFINITION. The operations of the block (spec/30_encoding.md R72, R73), one constructor for each row
of spec/opcode_table.json, and the two kinds of word an operation is read from. -/

namespace Sys2Proof

/-- One constructor for each row of the opcode table. Every operand has the width R73 gives it, so no
term of this type is ill formed. -/
inductive Instr where
  /-- WRCMD: send one command frame (R168). -/
  | wrcmd (type : BitVec 4) (operand : Byte)
  /-- FLUSH: send the display buffer (R167). -/
  | flush
  /-- CLEAR: clear the display (R128). -/
  | clear
  /-- DISPON: display on (R200). -/
  | dispon
  /-- DISPOFF: display off (R201). -/
  | dispoff
  /-- BLON: backlight on (R202). -/
  | blon
  /-- BLOFF: backlight off (R203). -/
  | bloff
  /-- PRTXT: print text (R106). -/
  | prtxt (len : BitVec 3) (c0 c1 c2 c3 c4 c5 : Byte)
  /-- PRINT: print an integer (R144). -/
  | print (n : BitVec 32)
  /-- PRFIX: print a scaled integer (R146). -/
  | prfix (mult : BitVec 24) (m : BitVec 32)
  /-- PRFLT: print a float (R150). -/
  | prflt (prec : BitVec 3) (x : BitVec 32)
  /-- ICON: switch one icon (R122). -/
  | icon (id : Byte) (en : Bool)
  /-- ICON2: switch a pair of icons (R123); `mode` false selects member A, true member B. -/
  | icon2 (id : Byte) (en mode : Bool)
  /-- BATT: battery gauge (R124). -/
  | batt (pct : Byte)
  /-- SIGNAL: signal bars (R125). -/
  | signal (pct : Byte)
  /-- CMDFRAME: the 16-bit command frame on the wire (R76, R161). The table lists it as a row; it is
  no request (log entry 7). -/
  | cmdframe (t : BitVec 4) (o : Byte)
deriving DecidableEq, Repr

/-- What an operation is read from: a 64-bit request word (format REQ64 of the table), or the 16-bit
value of a frame (format WIRE16). -/
inductive FetchWord where
  | req (w : Req)
  | wire (v : BitVec 16)
deriving DecidableEq, Repr

end Sys2Proof
end

