-- ==== Sys2Proof/Decode.lean ====
section
/-! DEFINITION. The decoder and the encoder of request words and of the command wire frame
(spec/30_encoding.md R71 to R76). The decoder is total and rejects by name. -/

namespace Sys2Proof

/-- Why a word is not read as an operation. -/
inductive Reject where
  /-- A request whose opcode R72 does not list (R74). The step takes such a request and does nothing. -/
  | reservedOpcode (opc : Byte)
  /-- A 16-bit value whose four padding bits are not 0: no command frame has that form (R76, R161). -/
  | notACommandFrame (v : BitVec 16)
deriving DecidableEq, Repr

/-- `OPC`, bits 63:56 of a request word (R71). -/
def Req.opc (w : Req) : Byte := w.extractLsb' 56 8

/-- `A`, bits 55:48 (R71). -/
def Req.a (w : Req) : Byte := w.extractLsb' 48 8

/-- `B`, bits 47:0 (R71). -/
def Req.b (w : Req) : BitVec 48 := w.extractLsb' 0 48

/-- The opcode map (R72) with the operand assembly of R73. A bit of `A` or `B` that R73 does not list
is not read (R75). -/
def decodeRequest (w : Req) : Except Reject Instr :=
  let a := Req.a w
  let b := Req.b w
  match Req.opc w with
  | 0x01#8 => .ok (.wrcmd (a.extractLsb' 0 4) (b.extractLsb' 0 8))
  | 0x02#8 => .ok .flush
  | 0x03#8 => .ok .clear
  | 0x04#8 => .ok .dispon
  | 0x05#8 => .ok .dispoff
  | 0x06#8 => .ok .blon
  | 0x07#8 => .ok .bloff
  | 0x10#8 => .ok (.prtxt (a.extractLsb' 0 3) (b.extractLsb' 40 8) (b.extractLsb' 32 8)
      (b.extractLsb' 24 8) (b.extractLsb' 16 8) (b.extractLsb' 8 8) (b.extractLsb' 0 8))
  | 0x11#8 => .ok (.print (b.extractLsb' 0 32))
  | 0x12#8 => .ok (.prfix (a ++ b.extractLsb' 32 16) (b.extractLsb' 0 32))
  | 0x13#8 => .ok (.prflt (a.extractLsb' 0 3) (b.extractLsb' 0 32))
  | 0x20#8 => .ok (.icon a (b.getLsbD 0))
  | 0x21#8 => .ok (.icon2 a (b.getLsbD 0) (b.getLsbD 1))
  | 0x22#8 => .ok (.batt (b.extractLsb' 0 8))
  | 0x23#8 => .ok (.signal (b.extractLsb' 0 8))
  | opc => .error (.reservedOpcode opc)

/-- The command wire frame `ttttoooooooo0000` (R76). -/
def decodeFrame (v : BitVec 16) : Except Reject Instr :=
  if v.extractLsb' 0 4 = 0#4 then .ok (.cmdframe (v.extractLsb' 12 4) (v.extractLsb' 4 8))
  else .error (.notACommandFrame v)

/-- The decoder. -/
def decode : FetchWord → Except Reject Instr
  | .req w => decodeRequest w
  | .wire v => decodeFrame v

/-- A request word of its three fields, `OPC ‖ A ‖ B` (R71). -/
def request (opc a : Byte) (b : BitVec 48) : Req := opc ++ a ++ b

/-- One bit as a 48-bit operand. -/
def bitOperand (v : Bool) : BitVec 48 := (BitVec.ofBool v).setWidth 48

/-- The command frame value `V = type << 12 | operand << 4` (R76, R161). -/
def cmdFrame (type : BitVec 4) (operand : Byte) : BitVec 16 := type ++ operand ++ 0#4

/-- The encoder: the word of an operation, written from R72 and R73, with every bit that R73 does not
list written as 0 (R75). -/
def encode : Instr → FetchWord
  | .wrcmd type operand => .req (request 0x01 (type.setWidth 8) (operand.setWidth 48))
  | .flush => .req (request 0x02 0 0)
  | .clear => .req (request 0x03 0 0)
  | .dispon => .req (request 0x04 0 0)
  | .dispoff => .req (request 0x05 0 0)
  | .blon => .req (request 0x06 0 0)
  | .bloff => .req (request 0x07 0 0)
  | .prtxt len c0 c1 c2 c3 c4 c5 =>
      .req (request 0x10 (len.setWidth 8) (c0 ++ c1 ++ c2 ++ c3 ++ c4 ++ c5))
  | .print n => .req (request 0x11 0 (n.setWidth 48))
  | .prfix mult m => .req (request 0x12 (mult.extractLsb' 16 8) (mult.extractLsb' 0 16 ++ m))
  | .prflt prec x => .req (request 0x13 (prec.setWidth 8) (x.setWidth 48))
  | .icon id en => .req (request 0x20 id (bitOperand en))
  | .icon2 id en mode => .req (request 0x21 id (bitOperand mode <<< 1 ||| bitOperand en))
  | .batt pct => .req (request 0x22 0 (pct.setWidth 48))
  | .signal pct => .req (request 0x23 0 (pct.setWidth 48))
  | .cmdframe t o => .wire (cmdFrame t o)

/-- The word of `nbits` bits and value `w`: the table's rows are 64 bits wide (format REQ64) or 16
(format WIRE16). -/
def fetchWordOf (nbits w : Nat) : FetchWord :=
  if nbits ≤ 16 then .wire (BitVec.ofNat 16 w) else .req (BitVec.ofNat 64 w)

/-- The operation the decoder reads from an instruction whose bits are `w`, none where it rejects. -/
def decodeTableWord (nbits w : Nat) : Option Instr :=
  match decode (fetchWordOf nbits w) with
  | .ok i => some i
  | .error _ => none

end Sys2Proof
end

