-- ==== Sys2Proof/Config.lean ====
section
/-! DEFINITION. The configuration record `cfg` of spec/00_scope.md R6 and R7, its table formats
(spec/30_encoding.md R79, R80, R82, R84), and the two families of values that stay uninterpreted: the
conversion FSCALE (R149) and the dead content of the staging register (spec/10_state.md R29). -/

namespace Sys2Proof

/-- A segment locator `(off, mask)` (R79). -/
structure Locator where
  off : Index
  mask : Byte
deriving DecidableEq, Repr, Inhabited

/-- A cell descriptor `(oH, shH, oL, oS, mS)` (R80). -/
structure CellDesc where
  oH : Index
  shH : Nat
  oL : Index
  oS : Index
  mS : Byte
deriving DecidableEq, Repr, Inhabited

/-- The transport strap (R180): exactly one of the two is active, so neither and both cannot be
written. -/
inductive Transport where
  | pins
  | block
deriving DecidableEq, Repr, Inhabited

/-- The OPEN fields of `cfg` (R7), but for FSCALE, which is a function and so no plain data. The
fields that R7 calls fixed are no fields: their values stand in the types (18 bytes, 6 cells, 7 bits,
64 glyphs) and in the rules that read them. -/
structure Config where
  /-- `GLYPH[0..63]` -/
  glyph : Vector Glyph 64
  /-- `CELL[0..5]` -/
  cell : Vector CellDesc 6
  /-- `DPLOC[1..5]`: the entry for position `j` stands at `j - 1` -/
  dploc : Vector Locator 5
  /-- `ICON[0..N_ICON-1]`, `N_ICON` its length -/
  icon : List Locator
  /-- `PAIR[0..N_PAIR-1]`, `N_PAIR` its length; each entry is `(locA, locB)` (R82) -/
  pair : List (Locator × Locator)
  /-- `(BATLOC[i], BAT_T[i])`, `N_BAT` its length -/
  bat : List (Locator × Nat)
  /-- `SIGLOC[0..2]` -/
  sigloc : Vector Locator 3
  /-- `HDR0` -/
  hdr0 : Byte
  /-- `HDR1` -/
  hdr1 : Byte
  /-- `CMD_TYPE` -/
  cmdType : BitVec 4
  /-- `CMD_INIT[0..5]` -/
  cmdInit : Vector Byte 6
  /-- `CMD_LCD_ON` -/
  cmdLcdOn : Byte
  /-- `CMD_LCD_OFF` -/
  cmdLcdOff : Byte
  /-- `CLAMP_MIN` -/
  clampMin : Int
  /-- `CLAMP_MAX`; not assumed to be `-CLAMP_MIN` (R141) -/
  clampMax : Int
  /-- `TRANSPORT` -/
  transport : Transport
  /-- `HAS_CS` -/
  hasCs : Bool
  /-- `HAS_BL` -/
  hasBl : Bool
deriving DecidableEq, Repr, Inhabited

/-- A conversion FSCALE (R149): a total function of a binary32 pattern and a precision 0 to 5, with the
one constraint the document puts on it, `FSCALE(3.14159, 2) = 314`. -/
structure FScale where
  scale : BitVec 32 → Nat → Int
  document_example : scale 0x40490FD0#32 2 = 314

/-- Some conversion that meets the document's example. Nothing of the model reads it: it only shows
that the type FScale is inhabited. -/
def FScale.witness : FScale := ⟨fun _ _ => 314, rfl⟩

/-- An uninterpreted conversion: it has no body, so nothing can be proved of its values but what every
FScale satisfies. -/
opaque FScale.uninterpreted (h : Inhabited FScale) : FScale

/-- `cfg.FSCALE`, OPEN (R7, R149, U4). DESIGN CHOICE (log entry 3, safe): one conversion for the
machine, with no property but the document's example. -/
def Config.fscale : FScale := FScale.uninterpreted ⟨FScale.witness⟩

/-- The free content of the staging register `S` after the `n`-th frame: "its content is defined only
inside one wr_bytes" (R29, U8). No body: nothing can be proved of it (log entry 10). -/
opaque Config.deadStaging : Nat → Vector Byte 18

/-- The free value of `SN` after the `n`-th frame (R29, U8), within the range 0 to 18 that R29 gives it
(log entry 10). -/
opaque Config.deadLength : Nat → Fin 19

end Sys2Proof
end

