-- ==== Sys2Proof/WellFormed.lean ====
section
/-! DEFINITION. Well-formed configurations (spec/00_scope.md R8, and the glyph rule of
spec/30_encoding.md R84), as checks that run, and the type of the configurations that pass them: an
ill-formed configuration is refused where it would be built (R222, U2). An operation needs no check of
its own: its operands' widths stand in the type `Instr`. -/

namespace Sys2Proof

/-- The numbers of the bits that are 1 in a mask. -/
def maskBits (m : Byte) : List Nat := (List.range 8).filter fun b => m.getLsbD b

/-- "exactly one bit set" (R8 (a), (b)). -/
def oneBit (m : Byte) : Bool := (maskBits m).length == 1

/-- The bit a locator names, as a set (R79). -/
def Locator.bits (l : Locator) : List BitPos := (maskBits l.mask).map fun b => (l.off, b)

/-- R8 (a) for one locator. -/
def Locator.wf (l : Locator) : Bool := decide (2 ≤ l.off.val) && oneBit l.mask

/-- The bit set of a cell (R8 (c)). -/
def CellDesc.bits (d : CellDesc) : List BitPos :=
  [(d.oH, d.shH + 2), (d.oH, d.shH + 1), (d.oH, d.shH), (d.oL, 2), (d.oL, 1), (d.oL, 0)]
    ++ (maskBits d.mS).map fun b => (d.oS, b)

/-- R8 (b) for one cell descriptor. -/
def CellDesc.wf (d : CellDesc) : Bool :=
  decide (2 ≤ d.oH.val) && decide (2 ≤ d.oL.val) && decide (2 ≤ d.oS.val)
    && decide (d.oH ≠ d.oL) && (d.shH == 4 || d.shH == 5) && oneBit d.mS
    && (d.oS == d.oH || d.oS == d.oL)

/-- The bits of all six cells. -/
def Config.cellBits (c : Config) : List BitPos := c.cell.toList.flatMap CellDesc.bits

/-- The bits of the five decimal points. -/
def Config.dpBits (c : Config) : List BitPos := c.dploc.toList.flatMap Locator.bits

/-- The bits of the single icons. -/
def Config.iconBits (c : Config) : List BitPos := c.icon.flatMap Locator.bits

/-- The bits of the members of the pairs. -/
def Config.pairBits (c : Config) : List BitPos := c.pair.flatMap fun p => p.1.bits ++ p.2.bits

/-- The bits of the battery segments. -/
def Config.batBits (c : Config) : List BitPos := c.bat.flatMap fun p => p.1.bits

/-- The bits of the three signal bars. -/
def Config.sigBits (c : Config) : List BitPos := c.sigloc.toList.flatMap Locator.bits

/-- Every bit of the display buffer that the configuration names (R8 (c), R22). -/
def Config.namedBits (c : Config) : List BitPos :=
  c.cellBits ++ c.dpBits ++ c.iconBits ++ c.pairBits ++ c.batBits ++ c.sigBits

/-- R8 (a). -/
def Config.locatorsWf (c : Config) : Bool :=
  c.dploc.toList.all Locator.wf && c.icon.all Locator.wf
    && c.pair.all (fun p => p.1.wf && p.2.wf) && c.bat.all (fun p => p.1.wf)
    && c.sigloc.toList.all Locator.wf

/-- R8 (b). -/
def Config.cellsWf (c : Config) : Bool := c.cell.toList.all CellDesc.wf

/-- R8 (c): the bit sets are pairwise disjoint and each cell's has 7 members. Since a set is listed
bit by bit, both say that no bit is listed twice. -/
def Config.disjointWf (c : Config) : Bool := decide c.namedBits.Nodup

/-- R8 (d). -/
def Config.clampWf (c : Config) : Bool :=
  decide (c.clampMin < 0) && decide (0 < c.clampMax) && decide (-2147483648 ≤ c.clampMin)
    && decide (c.clampMax ≤ 2147483647)

/-- R8 (e): the thresholds are non-decreasing and in 0..100. -/
def Config.thresholdsWf (c : Config) : Bool :=
  decide ((c.bat.map Prod.snd).Pairwise (· ≤ ·)) && c.bat.all fun p => decide (p.2 ≤ 100)

/-- The 39 supported characters (R84): digits, capital letters, space, underscore, minus. -/
def supported (ch : Nat) : Bool :=
  (decide (0x30 ≤ ch) && decide (ch ≤ 0x39)) || (decide (0x41 ≤ ch) && decide (ch ≤ 0x5A))
    || ch == 0x20 || ch == 0x5F || ch == 0x2D

/-- R84: "every other entry of the table holds the blank pattern", and so does the entry for the
space. DEDUCED (log entry 4): R84 states it of every table, R8 does not list it. -/
def Config.glyphsWf (c : Config) : Bool :=
  decide (∀ i : Fin 64, supported (0x20 + i.val) = false ∨ i.val = 0 → c.glyph[i] = 0#7)

/-- `WF(cfg)`: R8 (a) to (e), and R84. -/
def Config.wf (c : Config) : Bool :=
  c.locatorsWf && c.cellsWf && c.disjointWf && c.clampWf && c.thresholdsWf && c.glyphsWf

/-- A well-formed configuration. "a model refuses a configuration that is not well formed" (R8): here
it cannot be built. -/
structure WFConfig extends Config where
  wf : toConfig.wf = true
deriving DecidableEq, Repr

/-- The check at the point where a configuration is given to the block (R8, R222). -/
def Config.check (c : Config) : Option WFConfig :=
  if h : c.wf = true then some ⟨c, h⟩ else none

/-- Some well-formed configuration. No operation reads it: it only shows that the type WFConfig is
inhabited. -/
def Config.witness : Config where
  glyph := Vector.replicate 64 0#7
  cell := #v[⟨2, 4, 3, 3, 0x80#8⟩, ⟨4, 4, 5, 5, 0x80#8⟩, ⟨6, 4, 7, 7, 0x80#8⟩, ⟨8, 4, 9, 9, 0x80#8⟩,
    ⟨10, 4, 11, 11, 0x80#8⟩, ⟨12, 4, 13, 13, 0x80#8⟩]
  dploc := #v[⟨14, 0x01#8⟩, ⟨14, 0x02#8⟩, ⟨14, 0x04#8⟩, ⟨14, 0x08#8⟩, ⟨14, 0x10#8⟩]
  icon := []
  pair := []
  bat := []
  sigloc := #v[⟨15, 0x01#8⟩, ⟨15, 0x02#8⟩, ⟨15, 0x04#8⟩]
  hdr0 := 0
  hdr1 := 0
  cmdType := 0
  cmdInit := #v[0, 0, 0, 0, 0, 0]
  cmdLcdOn := 0
  cmdLcdOff := 0
  clampMin := -1
  clampMax := 1
  transport := .pins
  hasCs := false
  hasBl := false

theorem Config.witness_wf : Config.witness.wf = true := by decide

/-- An uninterpreted well-formed configuration: no body, so nothing can be proved of it but what every
well-formed configuration satisfies. -/
opaque WFConfig.uninterpreted (h : Inhabited WFConfig) : WFConfig

/-- The configuration that is strapped when the machine is first released from reset (R6, R7, R242).
DESIGN CHOICE (log entry 2, safe): every OPEN field is uninterpreted. -/
def Config.board : WFConfig := WFConfig.uninterpreted ⟨⟨Config.witness, Config.witness_wf⟩⟩

end Sys2Proof
end

