-- ==== Sys2Proof/Machine/Wire.lean ====
section
/-! DEFINITION. What leaves the block: events (spec/10_state.md R28), frame values and wire bytes
(spec/20_memory.md R54, spec/43_serializer.md R161), and the events by which the transport mux sends a
frame (spec/44_transport.md R183 to R185). -/

namespace Sys2Proof.Machine

/-- The four output pins (R27). -/
inductive Pin where
  | cs
  | clk
  | data
  | bl
deriving DecidableEq, Repr

/-- An event (R28): a level applied to a pin (false is 0, true is 1), or one block write. -/
inductive Event where
  | pin (p : Pin) (level : Bool)
  | blk (bytes : List Byte)
deriving DecidableEq, Repr

/-- The frame value `V` whose wire bytes, first byte first, are `ws` (R54): at most 18 bytes. -/
def frameValue (ws : List Byte) : BitVec 144 :=
  ws.foldl (fun v b => (v <<< 8) ||| b.setWidth 144) 0

/-- The wire byte `W[i] = V[8(n-i)-1 : 8(n-1-i)]` of an `n`-byte frame (R54). -/
def wireByte (V : BitVec 144) (n i : Nat) : Byte := V.extractLsb' (8 * (n - 1 - i)) 8

/-- The wire bytes of an `n`-byte frame, first byte first (R54). -/
def wireBytes (V : BitVec 144) (n : Nat) : List Byte := (List.range n).map (wireByte V n)

/-- The bits of a byte in the order of the wire, bit 7 first (R56). -/
def bitsMsbFirst (b : Byte) : List Bool := [7, 6, 5, 4, 3, 2, 1, 0].map fun j => b.getLsbD j

/-- The three events of one bit: clock low, data, clock high (R185). -/
def bitEvents (v : Bool) : List Event := [.pin .clk false, .pin .data v, .pin .clk true]

/-- `pins_out(bs)` (R185). -/
def pinsOut (bs : List Byte) : List Event := bs.flatMap fun b => (bitsMsbFirst b).flatMap bitEvents

/-- `block_out(bs)` (R184): the whole frame in one event. -/
def blockOut (bs : List Byte) : List Event := [.blk bs]

/-- The event that asserts (level 0) or deasserts (level 1) chip select, where there is one (R182). -/
def csEvent (c : WFConfig) (level : Bool) : List Event := if c.hasCs then [.pin .cs level] else []

/-- The events of `wr_bytes(bs)` (R183). -/
def frameEvents (c : WFConfig) (bs : List Byte) : List Event :=
  csEvent c false
    ++ (match c.transport with
        | .block => blockOut bs
        | .pins => pinsOut bs)
    ++ csEvent c true

/-- The wire bytes of a command frame, `W[0] = type << 4 | operand[7:4]` and
`W[1] = operand[3:0] << 4` (R161). -/
def cmdWire (type : BitVec 4) (operand : Byte) : List Byte :=
  [type ++ operand.extractLsb' 4 4, operand.extractLsb' 0 4 ++ 0#4]

/-- The events of the six command frames of the init sequence, in their order (R243). -/
def initEvents (c : WFConfig) : List Event :=
  c.cmdInit.toList.flatMap fun o => frameEvents c (cmdWire c.cmdType o)

/-- The level of the chip-select latch after the init sequence (R35). -/
def resetCs (c : WFConfig) : Option Bool := if c.hasCs then some true else none

/-- The level of the clock latch after the init sequence (R35). -/
def resetClk (c : WFConfig) : Option Bool :=
  match c.transport with
  | .pins => some true
  | .block => none

/-- The level of the data latch after the init sequence (R35). -/
def resetData (c : WFConfig) : Option Bool :=
  match c.transport with
  | .pins => some false
  | .block => none

end Sys2Proof.Machine
end

