-- ==== Sys2Proof/Machine/State.lean ====
section
/-! DEFINITION. The state of the block as plain data (spec/10_state.md), the reasons a step can stop,
and the state after reset (R35). -/

namespace Sys2Proof.Machine

/-- The data region of the display buffer, DB[2] to DB[17], as (index, byte) pairs in one canonical
form (`Memory.wf`): indices strictly rising, each in the data region, and no byte 0x00, which is what
an unlisted index reads as. The header DB[0], DB[1] is hard-wired (R21) and is never listed. -/
abbrev Memory := List Host.Cell

/-- The block raises nothing: "no synchronous exception, no trap and no fault" (R220), and "Nothing in
the block is treated as `fault`" (spec/93_implementation_defined.md section 1). So this type has no
constructor: no step can end in a fault. -/
inductive Fault where
deriving DecidableEq, Repr

/-- Why a step is refused. -/
inductive Refusal where
  /-- An operation without a meaning; no arm of exec answers with it, for every row of the table has
  its meaning. Safe. -/
  | notModelled (mnemonic : String)
  /-- The step was given a 16-bit value that is no command frame (its padding is not 0, R76, R161), at
  the model's own entry for the table's row CMDFRAME (log entry 7). "the block builds no other" frame
  (R160), so the spec gives it no effect. Safe: the model stops. -/
  | notACommandFrame (v : BitVec 16)
deriving DecidableEq, Repr

/-- What the outside presents to the block (R70, R240). -/
inductive Input where
  /-- A word to carry out: a request word at the request port, or (the model's own, log entry 7) a
  command frame handed to the serializer. -/
  | word (w : FetchWord)
  /-- The reset input is asserted and released, while `presented` stands at the request port; that
  request is lost (R240). -/
  | reset (presented : Option Req)
deriving DecidableEq, Repr

/-- The state of the machine. -/
structure State where
  /-- The configuration sampled when reset was released (R242); no operation changes it (R6). -/
  cfg : WFConfig
  /-- DB[2] to DB[17] (R20, R22). -/
  mem : Memory
  /-- The latch `DISP` (R24). -/
  disp : Bool
  /-- The latch `BLT` (R25). -/
  blt : Bool
  /-- The output latch `P_CS` (R27); none is "never driven since reset". -/
  pCs : Option Bool
  /-- The output latch `P_CLK` (R27). -/
  pClk : Option Bool
  /-- The output latch `P_DATA` (R27). -/
  pData : Option Bool
  /-- The output latch `P_BL` (R27). -/
  pBl : Option Bool
  /-- The output trace `OUT`, oldest event first (R28). -/
  out : List Event
  /-- The staging register `S[0..17]` (R29). -/
  stg : Vector Byte 18
  /-- `SN`, 0 to 18 (R29). -/
  sn : Fin 19
  /-- `BUSY` (R34 (c), R258). -/
  busy : Bool
  /-- The model's own: what the outside has presented and the block has not taken, in order, the next
  one first (R70, R264; log entry 5). -/
  inputs : List Input
  /-- The model's own: the number of the next frame, to which the free values of the staging register
  are applied (log entry 10). -/
  frames : Nat
deriving DecidableEq, Repr

/-- The state after reset and the init sequence, for a given configuration: the table of R35. `S` and
`SN` are unspecified there and hold the free value that the sixth init frame left (log entries 10 and
11). -/
def State.resetOf (c : WFConfig) : State where
  cfg := c
  mem := []
  disp := true
  blt := false
  pCs := resetCs c
  pClk := resetClk c
  pData := resetData c
  pBl := none
  out := initEvents c
  stg := Config.deadStaging 5
  sn := Config.deadLength 5
  busy := false
  inputs := []
  frames := 6

/-- The machine right after reset (R35), its configuration uninterpreted (log entry 2). -/
def State.reset : State := State.resetOf Config.board

end Sys2Proof.Machine
end

