-- ==== Sys2Proof/Machine/Ops.lean ====
section
/-! DEFINITION. The named operations over the state: the display buffer (spec/20_memory.md), the output
latches and the trace (spec/10_state.md R27, R28), and the frame serializer on its staging register
(spec/43_serializer.md R160 to R170). -/

namespace Sys2Proof.Machine

/-! The data region as a list of cells. -/

/-- What an index reads as: an unlisted one reads 0x00, its value at reset (R35). -/
def Memory.read : Memory → Nat → Byte
  | [], _ => 0
  | (k, v) :: rest, a => if k = a then v else Memory.read rest a

/-- Puts a byte at its place in a list with rising indices that does not list the index yet. -/
def Memory.insert : Memory → Nat → Byte → Memory
  | [], a, v => [(a, v)]
  | (k, w) :: rest, a, v => if a < k then (a, v) :: (k, w) :: rest else (k, w) :: Memory.insert rest a v

/-- Takes an index out of the list. -/
def Memory.erase (m : Memory) (a : Nat) : Memory := m.filter fun c => decide (c.1 ≠ a)

/-- Writes a byte. Writing 0x00, which an unlisted index reads as, removes the entry. -/
def Memory.write (m : Memory) (a : Nat) (v : Byte) : Memory :=
  if v = 0 then Memory.erase m a else Memory.insert (Memory.erase m a) a v

/-- The canonical form: indices strictly rising, all in the data region 2 to 17 (R58), and no entry
equal to what an unlisted index reads as. -/
def Memory.wf (m : Memory) : Bool :=
  decide ((m.map Prod.fst).Pairwise (· < ·))
    && m.all fun c => decide (2 ≤ c.1) && decide (c.1 ≤ 17) && decide (c.2 ≠ 0)

/-! Access to the display buffer. -/

/-- `DB[i]`, also `MemRead(i, 1)` (R10, R50): the header is hard-wired to `HDR0` and `HDR1` (R21). A
read has no side effect (R53). -/
def State.dbRead (s : State) (i : Index) : Byte :=
  if i.val = 0 then s.cfg.hdr0 else if i.val = 1 then s.cfg.hdr1 else Memory.read s.mem i.val

/-- `DB[i] <- v`, also `MemWrite(i, 1, v)` (R10, R50): suppressed for index 0 and 1 (R52). -/
def State.dbWrite (s : State) (i : Index) (v : Byte) : State :=
  if i.val < 2 then s else { s with mem := Memory.write s.mem i.val v }

/-- `DB[off] <- DB[off] | m` (R51). -/
def State.setBits (s : State) (off : Index) (m : Byte) : State := s.dbWrite off (s.dbRead off ||| m)

/-- `DB[off] <- DB[off] & ~m` (R51). -/
def State.clearBits (s : State) (off : Index) (m : Byte) : State :=
  s.dbWrite off (s.dbRead off &&& ~~~m)

/-- The 18 indices in order (R58). -/
def allIndices : List Index := [0, 1, 2, 3, 4, 5, 6, 7, 8, 9, 10, 11, 12, 13, 14, 15, 16, 17]

/-- The indices of the data region in order (R22, R58). -/
def dataIndices : List Index := [2, 3, 4, 5, 6, 7, 8, 9, 10, 11, 12, 13, 14, 15, 16, 17]

/-- `DB[0]` to `DB[17]` in index order, which is wire order (R20, R54). -/
def State.dbBytes (s : State) : List Byte := allIndices.map s.dbRead

/-! Events. -/

/-- `emit(e)` (R28): appends the event, and a pin event sets that pin's output latch. -/
def State.emit (s : State) (e : Event) : State :=
  let s := { s with out := s.out ++ [e] }
  match e with
  | .pin .cs l => { s with pCs := some l }
  | .pin .clk l => { s with pClk := some l }
  | .pin .data l => { s with pData := some l }
  | .pin .bl l => { s with pBl := some l }
  | .blk _ => s

/-- `emit` of each event in order. -/
def State.emitAll (s : State) (es : List Event) : State := es.foldl State.emit s

/-- `wr_bytes(bs)` (R183): the events of one frame. -/
def State.wrBytes (s : State) (bs : List Byte) : State := s.emitAll (frameEvents s.cfg bs)

/-! The frame serializer. -/

/-- The content of `S` after an `n`-byte frame is staged over the content `old` (R163): the
little-endian image of the frame in `S[0..n-1]`. -/
@[irreducible] def stagedImage (V : BitVec 144) (n : Fin 19) (old : Vector Byte 18) : Vector Byte 18 :=
  Vector.ofFn fun i : Fin 18 => if i.val < n.val then V.extractLsb' (8 * i.val) 8 else old[i]

/-- The content of `S` after the byte sequence `S[0..n-1]` of `old` is reversed in place (R164). -/
@[irreducible] def reversedImage (n : Fin 19) (old : Vector Byte 18) : Vector Byte 18 :=
  Vector.ofFn fun i : Fin 18 =>
    if h : i.val < n.val then old[n.val - 1 - i.val]'(by omega) else old[i]

/-- `stage(V, n)` (R163). -/
def State.stage (s : State) (V : BitVec 144) (n : Fin 19) : State :=
  { s with stg := stagedImage V n s.stg, sn := n }

/-- `reverse()` (R164): the byte sequence is reversed; the bits inside a byte keep their place. -/
def State.reverse (s : State) : State := { s with stg := reversedImage s.sn s.stg }

/-- `S[0..SN-1]`. -/
def State.staged (s : State) : List Byte := s.stg.toList.take s.sn.val

/-- The frame is discarded after it is sent (R160): from here to the next frame the staging register is
dead and holds a free value (R29, U8; log entry 10). -/
def State.discard (s : State) : State :=
  { s with
    stg := Config.deadStaging s.frames
    sn := Config.deadLength s.frames
    frames := s.frames + 1 }

/-- `wr_frame(V, n)` (R165): stage, reverse, and stream the staging register. -/
def State.wrFrame (s : State) (V : BitVec 144) (n : Fin 19) : State :=
  let s := (s.stage V n).reverse
  (s.wrBytes s.staged).discard

/-- `data_frame()` (R162): the frame whose wire bytes are `DB[0]` to `DB[17]` at the moment of the
call. -/
def State.dataFrame (s : State) : BitVec 144 := frameValue s.dbBytes

/-- `flush()` (R166): the whole display buffer as one data frame. -/
def State.flush (s : State) : State := s.wrFrame s.dataFrame 18

/-- One command frame, `wr_frame(cmd_frame(type, operand), 2)` (R168, R170). -/
def State.wrCmd (s : State) (type : BitVec 4) (operand : Byte) : State :=
  s.wrFrame ((cmdFrame type operand).setWidth 144) 2

/-- `send_cmd(operand)` (R170). -/
def State.sendCmd (s : State) (operand : Byte) : State := s.wrCmd s.cfg.cmdType operand

end Sys2Proof.Machine
end

