-- ==== Sys2Proof/Machine/Control.lean ====
section
/-! DEFINITION. The control operations (spec/45_control.md): display on and off, backlight on and off. -/

namespace Sys2Proof.Machine

/-- DISPON (R200). -/
def execDispon (s : State) : Host.Outcome State Fault Refusal :=
  .next { s.sendCmd s.cfg.cmdLcdOn with disp := true }

/-- DISPOFF (R201). -/
def execDispoff (s : State) : Host.Outcome State Fault Refusal :=
  .next { s.sendCmd s.cfg.cmdLcdOff with disp := false }

/-- BLON (R202): without a backlight pin, nothing. -/
def execBlon (s : State) : Host.Outcome State Fault Refusal :=
  .next (if s.cfg.hasBl then { s.emit (.pin .bl true) with blt := true } else s)

/-- BLOFF (R203): without a backlight pin, nothing. -/
def execBloff (s : State) : Host.Outcome State Fault Refusal :=
  .next (if s.cfg.hasBl then { s.emit (.pin .bl false) with blt := false } else s)

end Sys2Proof.Machine
end

