-- ==== Sys2Proof/Machine/Operands.lean ====
section
/-! DEFINITION. The operand forms of the operations, as pure functions: the text of PRTXT
(spec/40_encoder.md R106), the percentage of the gauges (spec/41_segment_map.md R124, R125), and the
clamp, the decimal formatter and the float forms of the numeric front end
(spec/42_numeric_frontend.md R141 to R151). The block has no flags (R31), so there is no file of flag
computations. -/

namespace Sys2Proof.Machine

/-- The text of PRTXT (R106): the first `min(len, 6)` characters, then spaces. -/
def textOf (len : BitVec 3) (cs : Vector Byte 6) : Vector Byte 6 :=
  Vector.ofFn fun i : Fin 6 => if i.val < min len.toNat 6 then cs[i] else 0x20#8

/-- A percentage above 100 is clamped to 100 (R124, R125). -/
def percentOf (pct : Byte) : Nat := min pct.toNat 100

/-- The number of bars for a percentage 0 to 100 (R125). -/
def barsOf (p : Nat) : Nat := if p > 60 then 3 else if p > 30 then 2 else if p > 0 then 1 else 0

/-- `clamp(v)` (R141): the two bounds are independent parameters. -/
def clamp (c : WFConfig) (v : Int) : Int := clampi v c.clampMin c.clampMax

/-- The digits of `n` in decimal before the characters `acc`, without leading zeros ("0" for 0), with
`fuel` bounding their number. -/
def digitsOnto : Nat → Nat → List Byte → List Byte
  | 0, _, acc => acc
  | fuel + 1, n, acc =>
    let acc := BitVec.ofNat 8 (0x30 + n % 10) :: acc
    if n / 10 = 0 then acc else digitsOnto fuel (n / 10) acc

/-- The decimal digits of a natural number. -/
def digits (n : Nat) : List Byte := digitsOnto (n + 1) n []

/-- `decimal(v)` (R143). -/
def decimal (v : Int) : List Byte := if v < 0 then 0x2D#8 :: digits v.natAbs else digits v.natAbs

/-- The characters of `fmt6(v)` (R143): padded with spaces on the left, or cut to the leftmost six. -/
def fmt6List (v : Int) : List Byte :=
  let s := decimal v
  if s.length ≤ 6 then List.replicate (6 - s.length) 0x20#8 ++ s else s.take 6

/-- `fmt6(v)` (R143). -/
def fmt6 (v : Int) : Vector Byte 6 := Vector.ofFn fun k : Fin 6 => (fmt6List v).getD k.val 0x20#8

/-- `prec_of(mult)` (R145). -/
def precOf (mult : BitVec 24) : Nat :=
  match mult.toNat with
  | 10 => 1
  | 100 => 2
  | 1000 => 3
  | 10000 => 4
  | 100000 => 5
  | _ => 0

/-- `pmax(neg)` (R147). -/
def pmax (neg : Bool) : Nat := if neg then 4 else 5

/-- `x < 0` in the IEEE comparison (R148): the sign bit is set, and the rest is neither zero nor a
NaN (above the pattern of the infinity). -/
def isNegative (x : BitVec 32) : Bool :=
  x.getLsbD 31 && decide (0 < (x.extractLsb' 0 31).toNat)
    && decide ((x.extractLsb' 0 31).toNat ≤ 0x7F800000)

/-- `mag` (R148): `x` with its sign bit cleared when it is negative, else `x`. -/
def magnitude (x : BitVec 32) : BitVec 32 := if isNegative x then x &&& 0x7FFFFFFF#32 else x

/-- The precision PRFLT shows: `min(prec, pmax(neg))` (R150). -/
def floatPrecision (prec : BitVec 3) (x : BitVec 32) : Nat := min prec.toNat (pmax (isNegative x))

/-- The integer PRFLT prints, by a conversion `scale` (R150): scaled, clamped, given its sign back, and
clamped as the integer print does. -/
def floatValue (scale : BitVec 32 → Nat → Int) (c : WFConfig) (prec : BitVec 3) (x : BitVec 32) : Int :=
  let q := clamp c (scale (magnitude x) (floatPrecision prec x))
  clamp c (if isNegative x then -q else q)

/-- The decimal-point position of a precision, `pos = 5 - p + 1` (R151). -/
def dpPosition (p : Nat) : Int := 5 - (p : Int) + 1

end Sys2Proof.Machine
end

