-- ==== Sys2Proof/Machine/Encoder.lean ====
section
/-! DEFINITION. The segment encoder (spec/40_encoder.md): glyph lookup, the split, writing a cell, text,
and the operation PRTXT. -/

namespace Sys2Proof.Machine

/-- `glyph(c)` (R100): the table for codes 0x20 to 0x5F, the blank pattern for every other code. -/
def glyphOf (c : WFConfig) (ch : Byte) : Glyph :=
  if h : 0x20 ≤ ch.toNat ∧ ch.toNat ≤ 0x5F then c.glyph[ch.toNat - 0x20]'(by omega) else 0

/-- `split(G)` (R102): group H is `G[6:4]`, group L is `G[2:0]`, group S is `G[3]`. -/
def split (g : Glyph) : BitVec 3 × BitVec 3 × Bool :=
  (g.extractLsb' 4 3, g.extractLsb' 0 3, g.getLsbD 3)

/-- `clear_cell(k)` (R103). -/
def State.clearCell (s : State) (k : Fin 6) : State :=
  let d := s.cfg.cell[k]
  ((s.clearBits d.oH (0x07#8 <<< d.shH)).clearBits d.oL 0x07#8).clearBits d.oS d.mS

/-- `put_cell(k, c)` (R104). It does not flush. -/
def State.putCell (s : State) (k : Fin 6) (ch : Byte) : State :=
  let d := s.cfg.cell[k]
  let g := split (glyphOf s.cfg ch)
  let s := s.clearCell k
  let s := s.setBits d.oH (g.1.setWidth 8 <<< d.shH)
  let s := s.setBits d.oL (g.2.1.setWidth 8)
  if g.2.2 then s.setBits d.oS d.mS else s

/-- The six cells from left to right (R81). -/
def cellIndices : List (Fin 6) := [0, 1, 2, 3, 4, 5]

/-- `put_text(t)` (R105): all six cells, every time. -/
def State.putText (s : State) (t : Vector Byte 6) : State :=
  cellIndices.foldl (fun s k => s.putCell k t[k]) s

/-- PRTXT (R106). -/
def execPrtxt (len : BitVec 3) (c0 c1 c2 c3 c4 c5 : Byte) (s : State) : Host.Outcome State Fault Refusal :=
  .next (s.putText (textOf len #v[c0, c1, c2, c3, c4, c5])).flush

end Sys2Proof.Machine
end

