-- ==== Sys2Proof/Machine/SegmentMap.lean ====
section
/-! DEFINITION. The segment map (spec/41_segment_map.md): the primitive `seg_write`, the decimal points,
and the operations ICON, ICON2, BATT, SIGNAL and CLEAR. -/

namespace Sys2Proof.Machine

/-- `seg_write(loc, v)` (R120). -/
def State.segWrite (s : State) (loc : Locator) (v : Bool) : State :=
  if v then s.setBits loc.off loc.mask else s.clearBits loc.off loc.mask

/-- `clear_dps()` (R126). -/
def State.clearDps (s : State) : State := s.cfg.dploc.toList.foldl (fun s loc => s.segWrite loc false) s

/-- `set_dp(pos)` (R126): nothing for a position outside 1 to 5. -/
def State.setDp (s : State) (pos : Int) : State :=
  if h : 1 ≤ pos ∧ pos ≤ 5 then s.segWrite (s.cfg.dploc[(pos - 1).toNat]'(by omega)) true else s

/-- `clear_data()` (R127). -/
def State.clearData (s : State) : State := dataIndices.foldl (fun s i => s.dbWrite i 0) s

/-- The two writes of ICON2 on its pair (R123). -/
def State.pairWrite (s : State) (locA locB : Locator) (en mode : Bool) : State :=
  match en, mode with
  | true, false => (s.segWrite locA true).segWrite locB false
  | true, true => (s.segWrite locB true).segWrite locA false
  | false, _ => (s.segWrite locA false).segWrite locB false

/-- The writes of BATT: every segment, lit when `p` is strictly above its threshold (R124). -/
def State.batteryWrite (s : State) (p : Nat) : State :=
  s.cfg.bat.foldl (fun s g => s.segWrite g.1 (decide (p > g.2))) s

/-- The writes of SIGNAL: the first `bars` bars lit, the others cleared (R125). -/
def State.signalWrite (s : State) (bars : Nat) : State :=
  ((s.segWrite s.cfg.sigloc[0] (decide (bars > 0))).segWrite s.cfg.sigloc[1] (decide (bars > 1))).segWrite
    s.cfg.sigloc[2] (decide (bars > 2))

/-- The effect of ICON (R122): an `id` beyond the table does nothing at all, not even a flush. -/
def State.switchIcon (s : State) (id : Byte) (en : Bool) : State :=
  match s.cfg.icon[id.toNat]? with
  | some loc => (s.segWrite loc en).flush
  | none => s

/-- The effect of ICON2 (R123): both writes before the one flush; an `id` beyond the table does
nothing at all. -/
def State.switchPair (s : State) (id : Byte) (en mode : Bool) : State :=
  match s.cfg.pair[id.toNat]? with
  | some p => (s.pairWrite p.1 p.2 en mode).flush
  | none => s

/-- ICON (R122). -/
def execIcon (id : Byte) (en : Bool) (s : State) : Host.Outcome State Fault Refusal :=
  .next (s.switchIcon id en)

/-- ICON2 (R123). -/
def execIcon2 (id : Byte) (en mode : Bool) (s : State) : Host.Outcome State Fault Refusal :=
  .next (s.switchPair id en mode)

/-- BATT (R124). -/
def execBatt (pct : Byte) (s : State) : Host.Outcome State Fault Refusal :=
  .next (s.batteryWrite (percentOf pct)).flush

/-- SIGNAL (R125). -/
def execSignal (pct : Byte) (s : State) : Host.Outcome State Fault Refusal :=
  .next (s.signalWrite (barsOf (percentOf pct))).flush

/-- CLEAR (R128). -/
def execClear (s : State) : Host.Outcome State Fault Refusal := .next s.clearData.flush

end Sys2Proof.Machine
end

