-- ==== Sys2Proof/Machine/Numeric.lean ====
section
/-! DEFINITION. The numeric front end (spec/42_numeric_frontend.md): the operations PRINT, PRFIX and
PRFLT over one pipeline (R140). -/

namespace Sys2Proof.Machine

/-- The part the three prints share (R140): the six cells show `fmt6(v)`, and no decimal point is
set. -/
def State.showInteger (s : State) (v : Int) : State := (s.putText (fmt6 v)).clearDps

/-- The pipeline of a print with a precision (R140, R146, R150): `p` digits right of the decimal
point. -/
def State.showScaled (s : State) (v : Int) (p : Nat) : State := (s.showInteger v).setDp (dpPosition p)

/-- PRFLT with a given conversion `scale` (R150). -/
def State.showFloat (scale : BitVec 32 → Nat → Int) (s : State) (prec : BitVec 3) (x : BitVec 32) : State :=
  s.showScaled (floatValue scale s.cfg prec x) (floatPrecision prec x)

/-- PRINT (R144): the operand is a 32-bit two's-complement value (R142). -/
def execPrint (n : BitVec 32) (s : State) : Host.Outcome State Fault Refusal :=
  .next (s.showInteger (clamp s.cfg n.toInt)).flush

/-- PRFIX (R146). -/
def execPrfix (mult : BitVec 24) (m : BitVec 32) (s : State) : Host.Outcome State Fault Refusal :=
  .next (s.showScaled (clamp s.cfg m.toInt) (precOf mult)).flush

/-- PRFLT (R150), with the configuration's conversion (R149). -/
def execPrflt (prec : BitVec 3) (x : BitVec 32) (s : State) : Host.Outcome State Fault Refusal :=
  .next (s.showFloat Config.fscale.scale prec x).flush

end Sys2Proof.Machine
end

