-- ==== Sys2Proof/Machine/Serializer.lean ====
section
/-! DEFINITION. The operations of the frame serializer (spec/43_serializer.md): WRCMD, FLUSH, and the
command frame itself, which the opcode table lists as the row CMDFRAME. -/

namespace Sys2Proof.Machine

/-- WRCMD (R168): one command frame; no latch but those of the pins it drives changes. -/
def execWrcmd (type : BitVec 4) (operand : Byte) (s : State) : Host.Outcome State Fault Refusal :=
  .next (s.wrCmd type operand)

/-- FLUSH (R167). -/
def execFlush (s : State) : Host.Outcome State Fault Refusal := .next s.flush

/-- CMDFRAME (R76, R161, R165): the command frame is sent, as the block sends every command frame.
DESIGN CHOICE (log entry 7): the row is no request, and sending it is the one thing the spec does with
such a frame. -/
def execCmdframe (t : BitVec 4) (o : Byte) (s : State) : Host.Outcome State Fault Refusal :=
  .next (s.wrFrame ((cmdFrame t o).setWidth 144) 2)

end Sys2Proof.Machine
end

