-- ==== Sys2Proof/Machine/Dispatch.lean ====
section
/-! DEFINITION. The dispatch: each operation of the opcode table to its meaning. -/

namespace Sys2Proof.Machine

/-- One arm for each operation. -/
def exec (i : Instr) (s : State) : Host.Outcome State Fault Refusal :=
  match i with
  | .wrcmd type operand => Sys2Proof.Machine.execWrcmd type operand s
  | .flush => Sys2Proof.Machine.execFlush s
  | .clear => Sys2Proof.Machine.execClear s
  | .dispon => Sys2Proof.Machine.execDispon s
  | .dispoff => Sys2Proof.Machine.execDispoff s
  | .blon => Sys2Proof.Machine.execBlon s
  | .bloff => Sys2Proof.Machine.execBloff s
  | .prtxt len c0 c1 c2 c3 c4 c5 => Sys2Proof.Machine.execPrtxt len c0 c1 c2 c3 c4 c5 s
  | .print n => Sys2Proof.Machine.execPrint n s
  | .prfix mult m => Sys2Proof.Machine.execPrfix mult m s
  | .prflt prec x => Sys2Proof.Machine.execPrflt prec x s
  | .icon id en => Sys2Proof.Machine.execIcon id en s
  | .icon2 id en mode => Sys2Proof.Machine.execIcon2 id en mode s
  | .batt pct => Sys2Proof.Machine.execBatt pct s
  | .signal pct => Sys2Proof.Machine.execSignal pct s
  | .cmdframe t o => Sys2Proof.Machine.execCmdframe t o s

end Sys2Proof.Machine
end

