-- ==== Sys2Proof/Machine/Port.lean ====
section
/-! DEFINITION. Reset (spec/70_reset_and_hazards.md R240 to R244) and the request port's handshake
(R258): what the step does around an operation. -/

namespace Sys2Proof.Machine

/-- The first step of the reset sequence (R241). `S` and `SN` have no value there and keep theirs (log
entry 11); the configuration is the sampled one (R242, log entry 12). -/
def State.resetStart (s : State) : State :=
  { s with
    mem := []
    disp := false
    blt := false
    pCs := none
    pClk := none
    pData := none
    pBl := none
    out := []
    busy := true }

/-- The init sequence (R243): six command frames in the order of `CMD_INIT`. -/
def State.initSequence (s : State) : State := s.cfg.cmdInit.toList.foldl State.sendCmd s

/-- Asserting and releasing reset (R240 to R244): the sequence runs once and to its end, then `DISP` is
1 and the block is ready. It sends no data frame (R245). -/
def State.restart (s : State) : State := { s.resetStart.initSequence with disp := true, busy := false }

/-- The request is taken from the port, and the block is busy (R258). -/
def State.take (s : State) (rest : List Input) : State := { s with inputs := rest, busy := true }

/-- The last event has been produced and applied: the block is ready again (R258). -/
def State.release (s : State) : State := { s with busy := false }

/-- How a step ends once the operation has ended. -/
def finish : Host.Outcome State Fault Refusal → Host.Outcome State Fault Refusal
  | .next s => .next s.release
  | .fault f => .fault f
  | .refused r => .refused r

/-- A word the decoder rejects. A reserved request is taken and does nothing (R74, R221 X10; log entry
8). A 16-bit value that is no command frame is refused by name (log entry 7). -/
def rejected (r : Reject) (s : State) : Host.Outcome State Fault Refusal :=
  match r with
  | .reservedOpcode _ => .next s
  | .notACommandFrame v => .refused (.notACommandFrame v)

/-- What is presented next, the reset input before all else: reset wins over an operation that is under
way and over a request presented with it (R224, R240); while the block is busy a request waits (R258);
with nothing presented the block idles. `run` carries a word out. -/
def State.serve (s : State) (run : FetchWord → State → Host.Outcome State Fault Refusal) :
    Host.Outcome State Fault Refusal :=
  match s.inputs with
  | [] => .next s
  | .reset _ :: rest => .next { s with inputs := rest }.restart
  | .word w :: rest => if s.busy then .next s else finish (run w (s.take rest))

/-- `s` with a word presented to a ready block, ahead of everything else. -/
def State.present (s : State) (w : FetchWord) : State :=
  { s with inputs := .word w :: s.inputs, busy := false }

end Sys2Proof.Machine
end

