-- ==== Sys2Proof/Machine/Step.lean ====
section
/-! DEFINITION. One step: one operation, carried out to its end before the next is taken
(spec/00_scope.md R11, spec/10_state.md R30). -/

namespace Sys2Proof.Machine

/-- A word taken from the port is decoded and carried out. -/
def runWord (w : FetchWord) (s : State) : Host.Outcome State Fault Refusal :=
  match decode w with
  | .ok i => exec i s
  | .error r => rejected r s

/-- One step of the machine. -/
def step (s : State) : Host.Outcome State Fault Refusal := s.serve runWord

/-- `s` with the instruction of `nbits` bits and value `w` presented to the block, so that the next
step takes it and carries it out (log entry 6). -/
def State.withFetchWord (s : State) (nbits w : Nat) : State := s.present (fetchWordOf nbits w)

end Sys2Proof.Machine
end

