-- ==== Sys2Proof/Safety.lean ====
section
/-! DEFINITION. The terms in which claims about the block are made: what is lit in the buffer
(spec/10_state.md R37), what a receiver samples from a trace (spec/44_transport.md R187), what a frame
and an operation leave (R165, R169), requests applied in order (R59, R264), and the invariants of the
block (R36, R60, R129 (b)). Nothing of the machine reads this file. -/

namespace Sys2Proof.Machine

/-! Reading the buffer. -/

/-- Bit `b` of `DB[i]`. -/
def State.bit (s : State) (i : Index) (b : Nat) : Bool := (s.dbRead i).getLsbD b

/-- `seg(loc)` (R37): the segment is lit in the buffer. -/
def State.seg (s : State) (loc : Locator) : Bool := decide (s.dbRead loc.off &&& loc.mask ≠ 0#8)

/-- `cell_bits(k)` (R37): the 7-bit pattern the cell holds. -/
def State.cellPattern (s : State) (k : Fin 6) : Glyph :=
  let d := s.cfg.cell[k]
  (((s.dbRead d.oH >>> d.shH) &&& 0x7#8).setWidth 7 <<< 4)
    ||| (if s.dbRead d.oS &&& d.mS ≠ 0#8 then 0x08#7 else 0#7)
    ||| ((s.dbRead d.oL &&& 0x07#8).setWidth 7)

/-- How many of the five decimal points are lit. -/
def State.litDps (s : State) : Nat := s.cfg.dploc.toList.countP s.seg

/-- How many battery segments are lit. -/
def State.litBattery (s : State) : Nat := s.cfg.bat.countP fun g => s.seg g.1

/-- How many signal bars are lit. -/
def State.litBars (s : State) : Nat := s.cfg.sigloc.toList.countP s.seg

/-- The output latch of a pin (R27). -/
def State.latch (s : State) : Pin → Option Bool
  | .cs => s.pCs
  | .clk => s.pClk
  | .data => s.pData
  | .bl => s.pBl

/-! Reading a trace. -/

/-- The last level driven on a pin in a trace, none if it was never driven. -/
def lastLevel (p : Pin) : List Event → Option Bool
  | [] => none
  | .pin q l :: rest => (lastLevel p rest).or (if q = p then some l else none)
  | .blk _ :: rest => lastLevel p rest

/-- `sampled` (R187) from a point where the latest data level is `d` and the clock was last driven low
when `low` is true: at every rising clock the latest data level is taken. -/
def sampledFrom : Option Bool → Bool → List Event → List Bool
  | _, _, [] => []
  | _, low, .pin .data v :: rest => sampledFrom (some v) low rest
  | d, _, .pin .clk false :: rest => sampledFrom d true rest
  | d, true, .pin .clk true :: rest => d.toList ++ sampledFrom d false rest
  | d, false, .pin .clk true :: rest => sampledFrom d false rest
  | d, low, .pin .cs _ :: rest => sampledFrom d low rest
  | d, low, .pin .bl _ :: rest => sampledFrom d low rest
  | d, low, .blk _ :: rest => sampledFrom d low rest

/-- `sampled(tr)` (R187): the bits a receiver takes from a piece of trace. -/
def sampled (tr : List Event) : List Bool := sampledFrom none false tr

/-- The bytes of the last data frame that a trace in `BLOCK` transport hands over: the last block write
of 18 bytes, none if there is none. -/
def lastDataFrame (tr : List Event) : Option (List Byte) :=
  (tr.filterMap fun e =>
    match e with
    | .blk bs => if bs.length = 18 then some bs else none
    | .pin _ _ => none).getLast?

/-! What an operation leaves. -/

/-- From `s` to `t` one frame with the wire bytes `ws` was sent and nothing else left the block: its
events are appended to the trace, chip select (if there is one) is left high, and in `PINS` transport
the clock is left high and the data line holds the last bit sent (R183, R185, R35). -/
def FrameSent (s t : State) (ws : List Byte) : Prop :=
  t.out = s.out ++ frameEvents s.cfg ws
    ∧ t.pCs = (if s.cfg.hasCs then some true else s.pCs)
    ∧ t.pClk = (if s.cfg.transport = .pins then some true else s.pClk)
    ∧ t.pData = (if s.cfg.transport = .pins then (ws.getLast?.map fun b => b.getLsbD 0) else s.pData)
    ∧ t.pBl = s.pBl
    ∧ t.frames = s.frames + 1

/-- Nothing left the block, and the serializer was not used. -/
def Silent (s t : State) : Prop :=
  t.out = s.out ∧ t.pCs = s.pCs ∧ t.pClk = s.pClk ∧ t.pData = s.pData ∧ t.pBl = s.pBl
    ∧ t.stg = s.stg ∧ t.sn = s.sn ∧ t.frames = s.frames

/-- Neither latch changed (R24, R25). -/
def SameLatches (s t : State) : Prop := t.disp = s.disp ∧ t.blt = s.blt

/-- What no operation touches: the configuration (R6), the handshake and what waits at the port. -/
def SamePort (s t : State) : Prop := t.cfg = s.cfg ∧ t.busy = s.busy ∧ t.inputs = s.inputs

/-- Every byte of the display buffer reads as before. -/
def SameBuffer (s t : State) : Prop := ∀ i : Index, t.dbRead i = s.dbRead i

/-- Every bit of the display buffer outside `bits` reads as before. -/
def SameBitsBut (bits : List BitPos) (s t : State) : Prop :=
  ∀ (i : Index) (b : Nat), (i, b) ∉ bits → t.bit i b = s.bit i b

/-- The operations that can change the display buffer (R23, R169). -/
def mutates : Instr → Bool
  | .clear | .prtxt .. | .print _ | .prfix .. | .prflt .. | .icon .. | .icon2 .. | .batt _ | .signal _ =>
    true
  | .wrcmd .. | .flush | .dispon | .dispoff | .blon | .bloff | .cmdframe .. => false

/-- An icon or pair number at or beyond its table (R221 X9). -/
def beyondTable (c : WFConfig) : Instr → Prop
  | .icon id _ => c.icon.length ≤ id.toNat
  | .icon2 id _ _ => c.pair.length ≤ id.toNat
  | _ => False

/-! Runs of requests. -/

/-- `s` with other things waiting at the port and another level of `BUSY`: everything but the handshake is
as in `s`. -/
def State.withPort (s : State) (waiting : List Input) (busy : Bool) : State :=
  { s with inputs := waiting, busy := busy }

/-- One request applied (R70), apart from the handshake: its operation, and nothing when its opcode is
reserved (R74; log entry 8). -/
def State.apply (s : State) (w : Req) : Host.Outcome State Fault Refusal :=
  match decodeRequest w with
  | .ok i => exec i s
  | .error _ => .next s

/-- Requests applied in order (R264), the first one first: each to the state that the one before it
left (R59). -/
def State.applyAll (s : State) : List Req → Host.Outcome State Fault Refusal
  | [] => .next s
  | w :: ws =>
    match s.apply w with
    | .next t => t.applyAll ws
    | .fault f => .fault f
    | .refused r => .refused r

/-! Invariants. -/

/-- The data region is in its canonical form. -/
def MemoryCanonical (s : State) : Prop := Memory.wf s.mem = true

/-- R36 (b): every bit of `DB[2..17]` that the configuration does not name is 0. -/
def UnnamedBitsClear (s : State) : Prop :=
  ∀ (i : Index) (b : Nat), 2 ≤ i.val → (i, b) ∉ s.cfg.namedBits → s.bit i b = false

/-- R36 (c): no pair has both bits set. -/
def PairsExclusive (s : State) : Prop := ∀ p ∈ s.cfg.pair, ¬(s.seg p.1 = true ∧ s.seg p.2 = true)

/-- At most one decimal point is lit (R36 (d)). -/
def AtMostOneDecimalPoint (s : State) : Prop := s.litDps ≤ 1

/-- Every output latch holds the last level driven on its pin since reset (R27, R28). -/
def LatchesFollowTrace (s : State) : Prop := ∀ p : Pin, s.latch p = lastLevel p s.out

/-- The trace holds no event of an output that the straps say is absent or unused (R27, R182, R184,
R202). -/
def StrapsRespected (s : State) : Prop :=
  (s.cfg.hasCs = false → ∀ l, Event.pin .cs l ∉ s.out)
    ∧ (s.cfg.hasBl = false → ∀ l, Event.pin .bl l ∉ s.out)
    ∧ (s.cfg.transport = .block → ∀ l, Event.pin .clk l ∉ s.out ∧ Event.pin .data l ∉ s.out)
    ∧ (s.cfg.transport = .pins → ∀ bs, Event.blk bs ∉ s.out)

/-- In `BLOCK` transport the last data frame in the trace equals the display buffer; before the first
one the data region is as reset left it (R60, R245). -/
def LastDataFrameIsBuffer (s : State) : Prop :=
  s.cfg.transport = .block →
    match lastDataFrame s.out with
    | some bs => bs = s.dbBytes
    | none => ∀ i : Index, 2 ≤ i.val → s.dbRead i = 0#8

/-! Reading shown text back. -/

/-- The number a list of digit characters shows, none if a character is no digit. -/
def readDigits : List Byte → Nat → Option Nat
  | [], acc => some acc
  | c :: rest, acc =>
    if 0x30 ≤ c.toNat ∧ c.toNat ≤ 0x39 then readDigits rest (10 * acc + (c.toNat - 0x30)) else none

/-- The integer that six characters show: spaces, then an optional minus sign, then one digit or
more. -/
def readInteger (t : Vector Byte 6) : Option Int :=
  match t.toList.dropWhile (· == 0x20#8) with
  | [] => none
  | c :: rest =>
    if c = 0x2D#8 then
      if rest.isEmpty then none else (readDigits rest 0).map fun n => -(n : Int)
    else (readDigits (c :: rest) 0).map fun n => (n : Int)

/-! Encodings. -/

/-- The opcodes of R72. -/
def listedOpcodes : List Byte :=
  [0x01, 0x02, 0x03, 0x04, 0x05, 0x06, 0x07, 0x10, 0x11, 0x12, 0x13, 0x20, 0x21, 0x22, 0x23]

/-- The bits of a request word that R73 lists for its opcode, with those of the opcode itself. -/
def listedBits (opc : Byte) : Req :=
  match opc with
  | 0x01#8 => 0xFF0F0000000000FF#64
  | 0x10#8 => 0xFF07FFFFFFFFFFFF#64
  | 0x11#8 => 0xFF000000FFFFFFFF#64
  | 0x12#8 => 0xFFFFFFFFFFFFFFFF#64
  | 0x13#8 => 0xFF070000FFFFFFFF#64
  | 0x20#8 => 0xFFFF000000000001#64
  | 0x21#8 => 0xFFFF000000000003#64
  | 0x22#8 => 0xFF000000000000FF#64
  | 0x23#8 => 0xFF000000000000FF#64
  | _ => 0xFF00000000000000#64

end Sys2Proof.Machine
end

