-- ==== Sys2Proof/Certificates/Slice0/Obligations.lean ====
section
/-! DEFINITION. The statements about the block, for the provers. They quantify over the whole state, and
so over every well-formed configuration. No statement says anything of the content of the staging
register between frames (a free value, log entry 10). -/

open Sys2Proof Sys2Proof.Machine

/-! Encoding. -/

/-- R71 to R73: decoding the word of an operation gives that operation, every operand at every value. -/
def Obligations.DecodeReturnsEncodedOperation : Prop :=
  ∀ i : Instr, decode (encode i) = .ok i

/-- R73, R76: a word that decodes is written again by the encoder but for the bits R73 does not list. -/
def Obligations.EncodeKeepsEveryListedBit : Prop :=
  (∀ (w : Req) (i : Instr),
      decodeRequest w = .ok i → encode i = .req (w &&& listedBits (Req.opc w)))
    ∧ ∀ (v : BitVec 16) (i : Instr), decodeFrame v = .ok i → encode i = .wire v

/-- R75: an operand bit that R73 does not list is ignored, by the decoder and by the step, and an
assembler writes it as 0. -/
def Obligations.UnlistedOperandBitsAreIgnored : Prop :=
  (∀ w w' : Req, Req.opc w = Req.opc w' →
      w &&& listedBits (Req.opc w) = w' &&& listedBits (Req.opc w) →
      decodeRequest w = decodeRequest w'
        ∧ ∀ s : State, step (s.present (.req w)) = step (s.present (.req w')))
    ∧ ∀ (i : Instr) (w : Req), encode i = .req w → w &&& ~~~(listedBits (Req.opc w)) = 0#64

/-- R72, R74: a request decodes exactly when its opcode is one of the fifteen listed, and is otherwise
rejected as reserved. -/
def Obligations.ExactlyTheListedOpcodesDecode : Prop :=
  ∀ w : Req,
    ((∃ i, decodeRequest w = .ok i) ↔ Req.opc w ∈ listedOpcodes)
      ∧ (Req.opc w ∉ listedOpcodes → decodeRequest w = .error (.reservedOpcode (Req.opc w)))

/-- R86: the request words of the assembly examples decode to their operations. -/
def Obligations.SampleWordsDecode : Prop :=
  decodeRequest 0x0108000000000006#64 = .ok (.wrcmd 0x8#4 0x06#8)
    ∧ decodeRequest 0x0200000000000000#64 = .ok .flush
    ∧ decodeRequest 0x100648454C4C4F21#64 = .ok (.prtxt 6#3 0x48#8 0x45#8 0x4C#8 0x4C#8 0x4F#8 0x21#8)
    ∧ decodeRequest 0x11000000FFFFFB2E#64 = .ok (.print (BitVec.ofInt 32 (-1234)))
    ∧ decodeRequest 0x12000064FFFFFB2E#64 = .ok (.prfix 100#24 (BitVec.ofInt 32 (-1234)))
    ∧ decodeRequest 0x1302000040490FD0#64 = .ok (.prflt 2#3 0x40490FD0#32)
    ∧ decodeRequest 0x2002000000000001#64 = .ok (.icon 2#8 true)
    ∧ decodeRequest 0x2100000000000003#64 = .ok (.icon2 0#8 true true)
    ∧ decodeRequest 0x2200000000000050#64 = .ok (.batt 80#8)
    ∧ decodeRequest 0x230000000000002D#64 = .ok (.signal 45#8)
    ∧ decodeFrame 0x8060#16 = .ok (.cmdframe 0x8#4 0x06#8)

/-! The step, the request port and reset. -/

/-- R11, R258: when the block is ready and the next word decodes to an operation, the step is that
operation on the state with the word taken and BUSY set, and BUSY is released at its end. -/
def Obligations.StepCarriesOutDecodedOperation : Prop :=
  ∀ (s : State) (w : FetchWord) (rest : List Input) (i : Instr),
    s.busy = false → s.inputs = .word w :: rest → decode w = .ok i →
    ∀ t, exec i { s with inputs := rest, busy := true } = .next t →
      step s = .next { t with busy := false }

/-- R74, R221 X10: a reserved request is taken and does nothing. The model's choice between R74's two
sentences is log entry 8. -/
def Obligations.ReservedRequestIsTakenAndDoesNothing : Prop :=
  ∀ (s : State) (w : Req) (rest : List Input),
    s.busy = false → s.inputs = .word (.req w) :: rest → Req.opc w ∉ listedOpcodes →
    step s = .next { s with inputs := rest }

/-- R258: a request presented while BUSY is 1 waits, neither lost nor started; with nothing presented
the block idles (the model's own, log entry 5). -/
def Obligations.RequestWaitsWhileBusy : Prop :=
  (∀ (s : State) (w : FetchWord) (rest : List Input),
      s.busy = true → s.inputs = .word w :: rest → step s = .next s)
    ∧ ∀ s : State, s.inputs = [] → step s = .next s

/-- R35, R243, R245: the state after reset, for every configuration: the table of R35, with `OUT` the six
init command frames in their order and nothing else; and before the init sequence no pin has been
driven and `OUT` is empty. -/
def Obligations.ResetStateIsTheTable : Prop :=
  State.reset = State.resetOf Config.board
    ∧ (∀ c : WFConfig,
        (State.resetOf c).dbRead 0 = c.hdr0
          ∧ (State.resetOf c).dbRead 1 = c.hdr1
          ∧ (∀ i : Index, 2 ≤ i.val → (State.resetOf c).dbRead i = 0#8)
          ∧ (State.resetOf c).disp = true
          ∧ (State.resetOf c).blt = false
          ∧ (State.resetOf c).pBl = none
          ∧ (State.resetOf c).pCs = (if c.hasCs then some true else none)
          ∧ (State.resetOf c).pClk = (if c.transport = .pins then some true else none)
          ∧ (State.resetOf c).pData = (if c.transport = .pins then some false else none)
          ∧ (State.resetOf c).out =
              frameEvents c (cmdWire c.cmdType c.cmdInit[0])
                ++ frameEvents c (cmdWire c.cmdType c.cmdInit[1])
                ++ frameEvents c (cmdWire c.cmdType c.cmdInit[2])
                ++ frameEvents c (cmdWire c.cmdType c.cmdInit[3])
                ++ frameEvents c (cmdWire c.cmdType c.cmdInit[4])
                ++ frameEvents c (cmdWire c.cmdType c.cmdInit[5])
          ∧ (State.resetOf c).busy = false)
    ∧ ∀ s : State,
        s.resetStart.pCs = none ∧ s.resetStart.pClk = none ∧ s.resetStart.pData = none
          ∧ s.resetStart.pBl = none ∧ s.resetStart.out = []

/-- R240 to R244, R224: when reset is asserted, in whatever state and whatever request stands with it,
the sequence of R241, R243 and R244 runs to its end and leaves the state after reset of the same
configuration; what was presented later still waits. The staging register and its counter are free
(log entries 10 to 12). -/
def Obligations.ResetSequenceReachesResetState : Prop :=
  ∀ (s : State) (presented : Option Req) (rest : List Input),
    s.inputs = .reset presented :: rest →
    ∃ t, step s = .next t
      ∧ t = { State.resetOf s.cfg with
                stg := t.stg, sn := t.sn, frames := t.frames, inputs := rest }

/-- R188, R245: how many events the frames and the init sequence are, in each of the four strappings, and
the init sequence sends no data frame. -/
def Obligations.EventCountsPerFrame : Prop :=
  ∀ c : WFConfig,
    (∀ ws : List Byte, (frameEvents c ws).length =
      (if c.transport = .pins then 24 * ws.length else 1) + (if c.hasCs then 2 else 0))
      ∧ (initEvents c).length =
          (if c.transport = .pins then 288 else 6) + (if c.hasCs then 12 else 0)
      ∧ ∀ bs, Event.blk bs ∈ initEvents c → bs.length = 2

/-- R220: no fault exists, every operation runs to its end from every state, every request word is taken
from a ready block, and a step ends in a next state unless a 16-bit value that is no command frame is
handed to it (the model's own entry, log entry 7). -/
def Obligations.EveryOperationRunsToItsEnd : Prop :=
  (Fault → False)
    ∧ (∀ (i : Instr) (s : State), ∃ t, exec i s = .next t)
    ∧ (∀ (s : State) (w : Req) (rest : List Input),
        s.busy = false → s.inputs = .word (.req w) :: rest →
        ∃ t, step s = .next t ∧ t.inputs = rest ∧ t.busy = false)
    ∧ ∀ s : State,
        (∀ (v : BitVec 16) (rest : List Input),
          s.inputs = .word (.wire v) :: rest → v.extractLsb' 0 4 = 0#4) →
        ∃ t, step s = .next t

/-- R59, R258, R264: a ready block carries out the request words that wait at its port one after another,
the first one first. After as many steps as there are words `ws`, the state is the one that applying `ws`
in order to the state leaves, the effects of each complete before the next; the block is ready again, the
configuration is the same, and at the port there waits exactly what waited after `ws`. So, with `ws` any
first part of what waits, no word is lost, repeated or taken out of its turn. That a reserved word among
them does nothing is log entry 8; the port as a list is log entry 5. -/
def Obligations.RequestsDrainInOrder : Prop :=
  ∀ (ws : List Req) (later : List Input) (s : State),
    s.busy = false → s.inputs = ws.map (fun w => Input.word (.req w)) ++ later →
    ∃ t : State, (s.withPort [] false).applyAll ws = .next t
      ∧ Sys2Proof.core.run ws.length s = .next (t.withPort later false)
      ∧ t.busy = false ∧ t.inputs = [] ∧ t.cfg = s.cfg

/-! Invariants of the step. -/

/-- R6, R28, R36 (e): no step changes the configuration, and unless reset is asserted the trace only
grows. -/
def Obligations.StepKeepsConfigurationAndGrowsTrace : Prop :=
  ∀ s t : State, step s = .next t →
    t.cfg = s.cfg
      ∧ ((∀ (presented : Option Req) (rest : List Input), s.inputs ≠ .reset presented :: rest) →
          s.out <+: t.out)

/-- R50, R58: every step keeps the display buffer's store in its canonical form, so that equal buffers
are equal data. -/
def Obligations.StepKeepsMemoryCanonical : Prop :=
  ∀ s t : State, MemoryCanonical s → step s = .next t → MemoryCanonical t

/-- R22, R36 (b): every step keeps the bits that the configuration does not name at 0. -/
def Obligations.StepKeepsUnnamedBitsClear : Prop :=
  ∀ s t : State, UnnamedBitsClear s → step s = .next t → UnnamedBitsClear t

/-- R36 (c), R129 (b): every step keeps each pair of icons from having both bits set. -/
def Obligations.StepKeepsPairsExclusive : Prop :=
  ∀ s t : State, PairsExclusive s → step s = .next t → PairsExclusive t

/-- R36 (d): every step keeps at most one decimal point lit. -/
def Obligations.StepKeepsAtMostOneDecimalPoint : Prop :=
  ∀ s t : State, AtMostOneDecimalPoint s → step s = .next t → AtMostOneDecimalPoint t

/-- R27, R28: every step keeps each output latch equal to the last level driven on its pin. -/
def Obligations.StepKeepsLatchesFollowingTrace : Prop :=
  ∀ s t : State, LatchesFollowTrace s → step s = .next t → LatchesFollowTrace t

/-- R27, R182, R184, R202: no step drives an output that the straps say is absent or unused. -/
def Obligations.StepRespectsStraps : Prop :=
  ∀ s t : State, StrapsRespected s → step s = .next t → StrapsRespected t

/-- R60: in BLOCK transport every step keeps the last data frame in the trace equal to the display
buffer. -/
def Obligations.StepKeepsLastDataFrameEqualToBuffer : Prop :=
  ∀ s t : State, LastDataFrameIsBuffer s → step s = .next t → LastDataFrameIsBuffer t

/-- R35, R36, R60, R245: the state after reset has every one of these invariants, whatever the
configuration. -/
def Obligations.ResetSatisfiesInvariants : Prop :=
  ∀ c : WFConfig,
    MemoryCanonical (State.resetOf c)
      ∧ UnnamedBitsClear (State.resetOf c)
      ∧ PairsExclusive (State.resetOf c)
      ∧ AtMostOneDecimalPoint (State.resetOf c)
      ∧ LatchesFollowTrace (State.resetOf c)
      ∧ StrapsRespected (State.resetOf c)
      ∧ LastDataFrameIsBuffer (State.resetOf c)

/-! The display buffer and the segment encoder. -/

/-- R21, R52: the two header bytes read as the configuration's constants in every state, and a write to
them is suppressed. -/
def Obligations.HeaderIsHardwired : Prop :=
  ∀ s : State,
    s.dbRead 0 = s.cfg.hdr0 ∧ s.dbRead 1 = s.cfg.hdr1
      ∧ ∀ (i : Index) (v : Byte), i.val < 2 → s.dbWrite i v = s

/-- R120: `seg_write` makes its one segment lit or dark as told, changes no other bit and nothing else of
the state, and doing it twice is doing it once. -/
def Obligations.SegWriteChangesOneBit : Prop :=
  ∀ (s : State) (loc : Locator) (v : Bool), loc.wf = true →
    (s.segWrite loc v).seg loc = v
      ∧ SameBitsBut loc.bits s (s.segWrite loc v)
      ∧ s.segWrite loc v = { s with mem := (s.segWrite loc v).mem }
      ∧ SameBuffer (s.segWrite loc v) ((s.segWrite loc v).segWrite loc v)

/-- R100, R84: the glyph of a code in the table is its entry, and every unsupported character and the
space are blank. -/
def Obligations.UnsupportedCharactersAreBlank : Prop :=
  ∀ (c : WFConfig) (ch : Byte),
    (∀ h : 0x20 ≤ ch.toNat ∧ ch.toNat ≤ 0x5F, glyphOf c ch = c.glyph[ch.toNat - 0x20]'(by omega))
      ∧ (ch.toNat < 0x20 ∨ 0x5F < ch.toNat → glyphOf c ch = 0#7)
      ∧ (supported ch.toNat = false ∨ ch = 0x20#8 → glyphOf c ch = 0#7)

/-- R102: the split loses nothing and invents nothing. -/
def Obligations.SplitLosesNothing : Prop :=
  ∀ g : Glyph,
    g = ((split g).1.setWidth 7 <<< 4) ||| (if (split g).2.2 then 0x08#7 else 0#7)
          ||| (split g).2.1.setWidth 7

/-- R104: after `put_cell(k, c)` the cell holds the glyph of `c`, blank for an unsupported one (R84, log
entry 4), every bit outside the cell and everything else of the state is as it was, and doing it twice is
doing it once. -/
def Obligations.PutCellShowsGlyphAndNothingElse : Prop :=
  ∀ (s : State) (k : Fin 6) (ch : Byte),
    (s.putCell k ch).cellPattern k = glyphOf s.cfg ch
      ∧ SameBitsBut s.cfg.cell[k].bits s (s.putCell k ch)
      ∧ (supported ch.toNat = false → (s.putCell k ch).cellPattern k = 0#7)
      ∧ s.putCell k ch = { s with mem := (s.putCell k ch).mem }
      ∧ SameBuffer (s.putCell k ch) ((s.putCell k ch).putCell k ch)

/-- R105, R107 (b), (d): after `put_text(t)` every cell holds the glyph of its character, whatever the
cells held before, and no bit outside the six cells changes. -/
def Obligations.PutTextShowsEveryCharacter : Prop :=
  ∀ (s : State) (t : Vector Byte 6),
    (∀ k : Fin 6, (s.putText t).cellPattern k = glyphOf s.cfg t[k])
      ∧ SameBitsBut s.cfg.cellBits s (s.putText t)

/-- R106: PRTXT shows its first `min(len, 6)` characters from the left and blanks the cells after them,
changes no other bit of the buffer, and sends the buffer in one data frame; the same text again leaves the
buffer and sends the same frame. -/
def Obligations.PrtxtShowsTextAndFlushes : Prop :=
  ∀ (len : BitVec 3) (c0 c1 c2 c3 c4 c5 : Byte) (s : State),
    ∃ t, exec (.prtxt len c0 c1 c2 c3 c4 c5) s = .next t
      ∧ (∀ k : Fin 6, t.cellPattern k =
          if k.val < min len.toNat 6 then glyphOf s.cfg #v[c0, c1, c2, c3, c4, c5][k] else 0#7)
      ∧ SameBitsBut s.cfg.cellBits s t
      ∧ FrameSent s t t.dbBytes ∧ SameLatches s t ∧ SamePort s t
      ∧ ∃ u, exec (.prtxt len c0 c1 c2 c3 c4 c5) t = .next u ∧ SameBuffer t u ∧ FrameSent t u t.dbBytes

/-! The numeric front end. -/

/-- R141: the clamp returns the value inside the configuration's bounds and the nearest bound outside
them. -/
def Obligations.ClampReturnsNearestBound : Prop :=
  ∀ (c : WFConfig) (v : Int),
    c.clampMin ≤ clamp c v ∧ clamp c v ≤ c.clampMax
      ∧ (c.clampMin ≤ v → v ≤ c.clampMax → clamp c v = v)
      ∧ (v < c.clampMin → clamp c v = c.clampMin)
      ∧ (c.clampMax < v → clamp c v = c.clampMax)

/-- R143: the decimal string of `v` is a minus sign first when `v` is negative and then the digits of its
magnitude, without leading zeros and "0" for 0; of up to six characters it is padded with spaces on the
left, longer it is cut to its leftmost six; and the six characters read back as `v` exactly in the
displayable range. -/
def Obligations.FormattedIntegerReadsBackInDisplayableRange : Prop :=
  decimal 0 = [0x30#8]
    ∧ (∀ n : Nat, 0 < n →
        readDigits (decimal n) 0 = some n ∧ (decimal n).head? ≠ some 0x30#8)
    ∧ (∀ v : Int, v < 0 → decimal v = 0x2D#8 :: decimal (-v))
    ∧ ∀ v : Int,
      ((decimal v).length ≤ 6 →
          (fmt6 v).toList = List.replicate (6 - (decimal v).length) 0x20#8 ++ decimal v)
        ∧ (6 < (decimal v).length → (fmt6 v).toList = (decimal v).take 6)
        ∧ (readInteger (fmt6 v) = some v ↔ -99999 ≤ v ∧ v ≤ 999999)

/-- R145, R151: the precision of each listed multiplier and of every other, and where its decimal point
stands: `p` cells right of it for `p` in 1..5, outside 1..5 for `p = 0`. -/
def Obligations.MultiplierGivesDecimalPointPosition : Prop :=
  (∀ mult : BitVec 24,
      (mult.toNat = 10 → precOf mult = 1) ∧ (mult.toNat = 100 → precOf mult = 2)
        ∧ (mult.toNat = 1000 → precOf mult = 3) ∧ (mult.toNat = 10000 → precOf mult = 4)
        ∧ (mult.toNat = 100000 → precOf mult = 5)
        ∧ (mult.toNat ∉ [10, 100, 1000, 10000, 100000] → precOf mult = 0))
    ∧ ∀ p : Nat, p ≤ 5 → dpPosition p = 6 - (p : Int) ∧ (1 ≤ dpPosition p ∧ dpPosition p ≤ 5 ↔ 1 ≤ p)

/-- R144: PRINT shows the clamped integer right-aligned, clears every decimal point, changes no other bit
of the buffer, and sends the buffer in one data frame. -/
def Obligations.PrintShowsClampedInteger : Prop :=
  ∀ (n : BitVec 32) (s : State),
    ∃ t, exec (.print n) s = .next t
      ∧ (∀ k : Fin 6, t.cellPattern k = glyphOf s.cfg (fmt6 (clamp s.cfg n.toInt))[k])
      ∧ (∀ loc ∈ s.cfg.dploc.toList, t.seg loc = false)
      ∧ SameBitsBut (s.cfg.cellBits ++ s.cfg.dpBits) s t
      ∧ FrameSent s t t.dbBytes ∧ SameLatches s t ∧ SamePort s t

/-- R146: PRFIX shows the clamped mantissa and exactly the decimal point `prec_of(mult)` digits from the
right, none for precision 0, changes no other bit of the buffer, and sends it in one data frame. -/
def Obligations.PrfixShowsMantissaAndDecimalPoint : Prop :=
  ∀ (mult : BitVec 24) (m : BitVec 32) (s : State),
    ∃ t, exec (.prfix mult m) s = .next t
      ∧ (∀ k : Fin 6, t.cellPattern k = glyphOf s.cfg (fmt6 (clamp s.cfg m.toInt))[k])
      ∧ (∀ j : Fin 5, t.seg s.cfg.dploc[j] = decide (j.val + 1 + precOf mult = 6))
      ∧ SameBitsBut (s.cfg.cellBits ++ s.cfg.dpBits) s t
      ∧ FrameSent s t t.dbBytes ∧ SameLatches s t ∧ SamePort s t

/-- R147 to R150: PRFLT shows the scaled and clamped magnitude with its sign given back, and exactly the
decimal point of the precision limited by the sign; the conversion is the configuration's uninterpreted
FSCALE (log entry 3). -/
def Obligations.PrfltShowsScaledFloat : Prop :=
  ∀ (prec : BitVec 3) (x : BitVec 32) (s : State),
    let neg : Bool := x.getLsbD 31 && decide (x.extractLsb' 0 31 ≠ 0#31)
      && decide ((x.extractLsb' 0 31).toNat ≤ 0x7F800000)
    let p : Nat := min prec.toNat (if neg then 4 else 5)
    let q : Int := clamp s.cfg (Config.fscale.scale (if neg then x &&& 0x7FFFFFFF#32 else x) p)
    ∃ t, exec (.prflt prec x) s = .next t
      ∧ (∀ k : Fin 6, t.cellPattern k =
          glyphOf s.cfg (fmt6 (clamp s.cfg (if neg then -q else q)))[k])
      ∧ (∀ j : Fin 5, t.seg s.cfg.dploc[j] = decide (j.val + 1 + p = 6))
      ∧ SameBitsBut (s.cfg.cellBits ++ s.cfg.dpBits) s t
      ∧ FrameSent s t t.dbBytes ∧ SameLatches s t ∧ SamePort s t

/-- R149, R150: the document's one float example, in every configuration whose upper clamp bound reaches
314: `PRFLT 3.14159, 2` shows three blanks and 314 with the decimal point at position 4 alone. -/
def Obligations.DocumentFloatExample : Prop :=
  ∀ s : State, 314 ≤ s.cfg.clampMax →
    ∃ t, exec (.prflt 2#3 0x40490FD0#32) s = .next t
      ∧ (∀ k : Fin 6, t.cellPattern k =
          glyphOf s.cfg #v[0x20#8, 0x20#8, 0x20#8, 0x33#8, 0x31#8, 0x34#8][k])
      ∧ ∀ j : Fin 5, t.seg s.cfg.dploc[j] = decide (j.val = 3)

/-- R145, R152 (d): a multiplier outside the five listed (1 and 0 among them) makes PRFIX do exactly what
PRINT does. -/
def Obligations.UnlistedMultiplierPrintsInteger : Prop :=
  ∀ (mult : BitVec 24) (m : BitVec 32) (s : State),
    mult.toNat ∉ [10, 100, 1000, 10000, 100000] → exec (.prfix mult m) s = exec (.print m) s

/-- R141, R144: an integer beyond a bound prints as that bound. -/
def Obligations.OutOfRangeIntegerPrintsTheBound : Prop :=
  ∀ (n : BitVec 32) (s : State),
    (s.cfg.clampMax < n.toInt → exec (.print n) s = exec (.print (BitVec.ofInt 32 s.cfg.clampMax)) s)
      ∧ (n.toInt < s.cfg.clampMin →
          exec (.print n) s = exec (.print (BitVec.ofInt 32 s.cfg.clampMin)) s)

/-! The segment map. -/

/-- R122: ICON makes its one segment lit or dark as told, changes no other bit and sends the buffer in one
data frame; repeating it leaves the buffer unchanged; an `id` at or beyond the table does nothing at
all. -/
def Obligations.IconSwitchesItsSegment : Prop :=
  ∀ (id : Byte) (en : Bool) (s : State),
    (∀ h : id.toNat < s.cfg.icon.length,
      ∃ t, exec (.icon id en) s = .next t
        ∧ t.seg s.cfg.icon[id.toNat] = en
        ∧ SameBitsBut s.cfg.icon[id.toNat].bits s t
        ∧ FrameSent s t t.dbBytes ∧ SameLatches s t ∧ SamePort s t
        ∧ ∃ u, exec (.icon id en) t = .next u ∧ SameBuffer t u ∧ FrameSent t u t.dbBytes)
      ∧ (s.cfg.icon.length ≤ id.toNat → exec (.icon id en) s = .next s)

/-- R123: ICON2 lights member A or B and clears the other when enabled, clears both when not, changes no
other bit and sends the buffer in one data frame after both writes; repeating it leaves the buffer
unchanged; an `id` at or beyond the table does nothing at all; the mode is ignored when not enabled. -/
def Obligations.Icon2SwitchesItsPair : Prop :=
  ∀ (id : Byte) (en mode : Bool) (s : State),
    (∀ h : id.toNat < s.cfg.pair.length,
      ∃ t, exec (.icon2 id en mode) s = .next t
        ∧ t.seg s.cfg.pair[id.toNat].1 = (en && !mode)
        ∧ t.seg s.cfg.pair[id.toNat].2 = (en && mode)
        ∧ SameBitsBut (s.cfg.pair[id.toNat].1.bits ++ s.cfg.pair[id.toNat].2.bits) s t
        ∧ FrameSent s t t.dbBytes ∧ SameLatches s t ∧ SamePort s t
        ∧ ∃ u, exec (.icon2 id en mode) t = .next u ∧ SameBuffer t u)
      ∧ (s.cfg.pair.length ≤ id.toNat → exec (.icon2 id en mode) s = .next s)
      ∧ exec (.icon2 id false true) s = exec (.icon2 id false false) s

/-- R124: BATT lights exactly the segments whose threshold lies strictly below the percentage, clamped to
100, changes no other bit and sends the buffer in one data frame, also when there is no segment. -/
def Obligations.BattLightsSegmentsAboveThreshold : Prop :=
  ∀ (pct : Byte) (s : State),
    ∃ t, exec (.batt pct) s = .next t
      ∧ (∀ g ∈ s.cfg.bat, t.seg g.1 = decide (min pct.toNat 100 > g.2))
      ∧ SameBitsBut s.cfg.batBits s t
      ∧ FrameSent s t t.dbBytes ∧ SameLatches s t ∧ SamePort s t

/-- R125: SIGNAL lights the first, second and third bar exactly for a percentage above 0, 30 and 60,
changes no other bit and sends the buffer in one data frame. -/
def Obligations.SignalLightsBars : Prop :=
  ∀ (pct : Byte) (s : State),
    ∃ t, exec (.signal pct) s = .next t
      ∧ t.seg s.cfg.sigloc[0] = decide (min pct.toNat 100 > 0)
      ∧ t.seg s.cfg.sigloc[1] = decide (min pct.toNat 100 > 30)
      ∧ t.seg s.cfg.sigloc[2] = decide (min pct.toNat 100 > 60)
      ∧ SameBitsBut s.cfg.sigBits s t
      ∧ FrameSent s t t.dbBytes ∧ SameLatches s t ∧ SamePort s t

/-- R127, R128: CLEAR zeroes every data byte, so that every segment and every cell is dark, leaves the
header and both latches, and sends the buffer in one data frame. -/
def Obligations.ClearZeroesDataRegion : Prop :=
  ∀ s : State,
    ∃ t, exec .clear s = .next t
      ∧ (∀ i : Index, 2 ≤ i.val → t.dbRead i = 0#8)
      ∧ t.dbRead 0 = s.dbRead 0 ∧ t.dbRead 1 = s.dbRead 1
      ∧ (∀ loc : Locator, loc.wf = true → t.seg loc = false)
      ∧ (∀ k : Fin 6, t.cellPattern k = 0#7)
      ∧ FrameSent s t t.dbBytes ∧ SameLatches s t ∧ SamePort s t

/-- R129 (e): the number of lit battery segments and the number of lit bars do not fall when the
percentage rises. -/
def Obligations.GaugesAreMonotone : Prop :=
  ∀ (p q : Byte) (s : State), p.toNat ≤ q.toNat →
    (∀ t u, exec (.batt p) s = .next t → exec (.batt q) s = .next u → t.litBattery ≤ u.litBattery)
      ∧ ∀ t u, exec (.signal p) s = .next t → exec (.signal q) s = .next u → t.litBars ≤ u.litBars

/-- R129 (d), R152 (c): icons and gauges disturb no cell and no decimal point; PRTXT disturbs no icon, no
gauge and no decimal point; the numeric prints disturb no icon and no gauge. -/
def Obligations.FamiliesDoNotDisturbEachOther : Prop :=
  ∀ (i : Instr) (s t : State), exec i s = .next t →
    match i with
    | .icon .. | .icon2 .. | .batt _ | .signal _ =>
      (∀ k : Fin 6, t.cellPattern k = s.cellPattern k)
        ∧ ∀ loc ∈ s.cfg.dploc.toList, t.seg loc = s.seg loc
    | .prtxt .. =>
      (∀ loc ∈ s.cfg.icon ++ s.cfg.dploc.toList ++ s.cfg.sigloc.toList, t.seg loc = s.seg loc)
        ∧ (∀ g ∈ s.cfg.bat, t.seg g.1 = s.seg g.1)
        ∧ ∀ p ∈ s.cfg.pair, t.seg p.1 = s.seg p.1 ∧ t.seg p.2 = s.seg p.2
    | .print _ | .prfix .. | .prflt .. =>
      (∀ loc ∈ s.cfg.icon ++ s.cfg.sigloc.toList, t.seg loc = s.seg loc)
        ∧ (∀ g ∈ s.cfg.bat, t.seg g.1 = s.seg g.1)
        ∧ ∀ p ∈ s.cfg.pair, t.seg p.1 = s.seg p.1 ∧ t.seg p.2 = s.seg p.2
    | .wrcmd .. | .flush | .clear | .dispon | .dispoff | .blon | .bloff | .cmdframe .. => True

/-- R107 (c), R129 (a), R152 (e): every operation is idempotent on the display buffer. -/
def Obligations.OperationsAreIdempotentOnBuffer : Prop :=
  ∀ (i : Instr) (s t u : State), exec i s = .next t → exec i t = .next u → SameBuffer t u

/-! The frame serializer and the transport mux. -/

/-- R161, R76: the value and the wire bytes of a command frame. -/
def Obligations.CommandFrameWireBytes : Prop :=
  ∀ (type : BitVec 4) (operand : Byte),
    cmdFrame type operand = (type.setWidth 16 <<< 12) ||| (operand.setWidth 16 <<< 4)
      ∧ wireBytes ((cmdFrame type operand).setWidth 144) 2 =
          [(type.setWidth 8 <<< 4) ||| (operand >>> 4), operand <<< 4]
      ∧ cmdWire type operand = wireBytes ((cmdFrame type operand).setWidth 144) 2

/-- R162: the wire bytes of the data frame are the 18 bytes of the display buffer in index order. -/
def Obligations.DataFrameCarriesTheBuffer : Prop :=
  ∀ s : State, wireBytes s.dataFrame 18 = s.dbBytes

/-- R163 to R165, R183: staging, reversing and streaming an `n`-byte frame sends exactly its wire bytes,
first byte first, in one chip-select window, and changes nothing but the trace, the output latches and
the staging register. -/
def Obligations.WrFrameSendsWireBytes : Prop :=
  ∀ (s : State) (V : BitVec 144) (n : Fin 19), 1 ≤ n.val →
    FrameSent s (s.wrFrame V n) (wireBytes V n.val)
      ∧ SameBuffer s (s.wrFrame V n) ∧ SameLatches s (s.wrFrame V n) ∧ SamePort s (s.wrFrame V n)

/-- R171 (a), (b): reversing twice leaves `S[0..SN-1]`, and after staging and reversing a frame of 2 or 18
bytes the staged bytes joined give its value. -/
def Obligations.ReverseIsAnInvolution : Prop :=
  (∀ s : State, s.reverse.reverse.staged = s.staged)
    ∧ (∀ (s : State) (V : BitVec 16),
        frameValue ((s.stage (V.setWidth 144) 2).reverse.staged) = V.setWidth 144)
    ∧ ∀ (s : State) (V : BitVec 144), frameValue ((s.stage V 18).reverse.staged) = V

/-- R187, R171 (c) to (e), R186: in PINS transport the bits a receiver samples from a frame are its wire
bytes, each bit 7 first; so a command frame is its value from bit 15 down; and BLOCK transport hands over
the same bytes in one event. -/
def Obligations.SampledBitsAreTheWireBytes : Prop :=
  (∀ (c : WFConfig) (ws : List Byte), c.transport = .pins →
      sampled (frameEvents c ws) = ws.flatMap bitsMsbFirst)
    ∧ (∀ (c : WFConfig) (type : BitVec 4) (operand : Byte), c.transport = .pins →
        sampled (frameEvents c (cmdWire type operand)) =
          (List.range 16).map fun j => (cmdFrame type operand).getLsbD (15 - j))
    ∧ ∀ (c : WFConfig) (ws : List Byte), c.transport = .block →
        (frameEvents c ws).filter (fun e => decide (e ≠ .pin .cs false ∧ e ≠ .pin .cs true)) = [.blk ws]

/-- R28: an event is appended to the trace, a pin event sets that pin's latch and no other, and a block
write changes no latch. -/
def Obligations.EmitAppendsAndSetsLatch : Prop :=
  ∀ s : State,
    (∀ (p : Pin) (l : Bool), (s.emit (.pin p l)).out = s.out ++ [.pin p l]
        ∧ (s.emit (.pin p l)).latch p = some l
        ∧ ∀ q : Pin, q ≠ p → (s.emit (.pin p l)).latch q = s.latch q)
      ∧ ∀ bs : List Byte, (s.emit (.blk bs)).out = s.out ++ [.blk bs]
        ∧ ∀ q : Pin, (s.emit (.blk bs)).latch q = s.latch q

/-- R167: FLUSH sends the display buffer in one data frame and changes nothing else. -/
def Obligations.FlushSendsTheBuffer : Prop :=
  ∀ s : State,
    ∃ t, exec .flush s = .next t
      ∧ FrameSent s t s.dbBytes ∧ SameBuffer s t ∧ SameLatches s t ∧ SamePort s t

/-- R168: WRCMD sends one command frame and changes nothing else; the display latch does not follow it,
whatever the code. -/
def Obligations.WrcmdSendsOneCommandFrame : Prop :=
  ∀ (type : BitVec 4) (operand : Byte) (s : State),
    ∃ t, exec (.wrcmd type operand) s = .next t
      ∧ FrameSent s t [(type.setWidth 8 <<< 4) ||| (operand >>> 4), operand <<< 4]
      ∧ SameBuffer s t ∧ SameLatches s t ∧ SamePort s t

/-- R161, R165: the row CMDFRAME sends its frame as it stands on the wire and changes nothing else. That
the row is carried out at all is the model's choice (log entry 7). -/
def Obligations.CmdframeSendsItself : Prop :=
  ∀ (type : BitVec 4) (operand : Byte) (s : State),
    ∃ t, exec (.cmdframe type operand) s = .next t
      ∧ FrameSent s t [(type.setWidth 8 <<< 4) ||| (operand >>> 4), operand <<< 4]
      ∧ SameBuffer s t ∧ SameLatches s t ∧ SamePort s t

/-- R169: every operation that can change the buffer ends with exactly one data frame, which carries the
buffer as the operation leaves it, but for an icon or pair number beyond its table, which does nothing
at all; no other operation changes the buffer (R23). -/
def Obligations.MutatingOperationsEndWithOneFlush : Prop :=
  ∀ (i : Instr) (s t : State), exec i s = .next t →
    (mutates i = true → ¬ beyondTable s.cfg i → FrameSent s t t.dbBytes)
      ∧ (beyondTable s.cfg i → t = s)
      ∧ (mutates i = false → SameBuffer s t)

/-! The control latches. -/

/-- R200, R201: DISPON and DISPOFF send one command frame of the configuration's code and set or clear the
display latch, whatever it was, and change nothing else. -/
def Obligations.DisplaySwitchSendsCommandAndSetsLatch : Prop :=
  ∀ s : State,
    (∃ t, exec .dispon s = .next t
        ∧ FrameSent s t (cmdWire s.cfg.cmdType s.cfg.cmdLcdOn)
        ∧ t.disp = true ∧ t.blt = s.blt ∧ SameBuffer s t ∧ SamePort s t)
      ∧ ∃ t, exec .dispoff s = .next t
        ∧ FrameSent s t (cmdWire s.cfg.cmdType s.cfg.cmdLcdOff)
        ∧ t.disp = false ∧ t.blt = s.blt ∧ SameBuffer s t ∧ SamePort s t

/-- R202, R203: with a backlight pin BLON and BLOFF drive it high and low in one event and set or clear
the backlight latch, whatever it was, and change nothing else; without one they do nothing. -/
def Obligations.BacklightSwitchDrivesItsPin : Prop :=
  ∀ s : State,
    (s.cfg.hasBl = true →
        exec .blon s = .next { s with out := s.out ++ [.pin .bl true], pBl := some true, blt := true }
          ∧ exec .bloff s =
              .next { s with out := s.out ++ [.pin .bl false], pBl := some false, blt := false })
      ∧ (s.cfg.hasBl = false → exec .blon s = .next s ∧ exec .bloff s = .next s)

/-- R24, R25, R204: no operation but DISPON and DISPOFF changes the display latch, and none but BLON and
BLOFF changes the backlight latch or drives the backlight pin. -/
def Obligations.LatchesChangeOnlyByTheirOperations : Prop :=
  ∀ (i : Instr) (s t : State), exec i s = .next t →
    (i ≠ .dispon → i ≠ .dispoff → t.disp = s.disp)
      ∧ (i ≠ .blon → i ≠ .bloff → t.blt = s.blt ∧ t.pBl = s.pBl
          ∧ ∃ es, t.out = s.out ++ es ∧ ∀ l, Event.pin .bl l ∉ es)
end

