-- ==== Sys2Proof/Laws/State.lean ====
section
/-! SUPPORT. One lemma per field per update of the state, so that no later proof unfolds a record
update. -/

namespace Sys2Proof.Machine

/-! The fields after `dbWrite`. -/

@[simp] theorem State.dbWrite_cfg (s : State) (i : Index) (v : Byte) : (s.dbWrite i v).cfg = s.cfg :=
    by unfold State.dbWrite; split <;> rfl

@[simp] theorem State.dbWrite_disp (s : State) (i : Index) (v : Byte) : (s.dbWrite i v).disp = s.disp :=
    by unfold State.dbWrite; split <;> rfl

@[simp] theorem State.dbWrite_blt (s : State) (i : Index) (v : Byte) : (s.dbWrite i v).blt = s.blt :=
    by unfold State.dbWrite; split <;> rfl

@[simp] theorem State.dbWrite_pCs (s : State) (i : Index) (v : Byte) : (s.dbWrite i v).pCs = s.pCs :=
    by unfold State.dbWrite; split <;> rfl

@[simp] theorem State.dbWrite_pClk (s : State) (i : Index) (v : Byte) : (s.dbWrite i v).pClk = s.pClk :=
    by unfold State.dbWrite; split <;> rfl

@[simp] theorem State.dbWrite_pData (s : State) (i : Index) (v : Byte) : (s.dbWrite i v).pData = s.pData :=
    by unfold State.dbWrite; split <;> rfl

@[simp] theorem State.dbWrite_pBl (s : State) (i : Index) (v : Byte) : (s.dbWrite i v).pBl = s.pBl :=
    by unfold State.dbWrite; split <;> rfl

@[simp] theorem State.dbWrite_out (s : State) (i : Index) (v : Byte) : (s.dbWrite i v).out = s.out :=
    by unfold State.dbWrite; split <;> rfl

@[simp] theorem State.dbWrite_stg (s : State) (i : Index) (v : Byte) : (s.dbWrite i v).stg = s.stg :=
    by unfold State.dbWrite; split <;> rfl

@[simp] theorem State.dbWrite_sn (s : State) (i : Index) (v : Byte) : (s.dbWrite i v).sn = s.sn :=
    by unfold State.dbWrite; split <;> rfl

@[simp] theorem State.dbWrite_busy (s : State) (i : Index) (v : Byte) : (s.dbWrite i v).busy = s.busy :=
    by unfold State.dbWrite; split <;> rfl

@[simp] theorem State.dbWrite_inputs (s : State) (i : Index) (v : Byte) : (s.dbWrite i v).inputs = s.inputs :=
    by unfold State.dbWrite; split <;> rfl

@[simp] theorem State.dbWrite_frames (s : State) (i : Index) (v : Byte) : (s.dbWrite i v).frames = s.frames :=
    by unfold State.dbWrite; split <;> rfl

/-! The fields after `emit`. -/

@[simp] theorem State.emit_cfg (s : State) (e : Event) : (s.emit e).cfg = s.cfg := by
  cases e with
  | pin p l => cases p <;> rfl
  | blk bs => rfl

@[simp] theorem State.emit_mem (s : State) (e : Event) : (s.emit e).mem = s.mem := by
  cases e with
  | pin p l => cases p <;> rfl
  | blk bs => rfl

@[simp] theorem State.emit_disp (s : State) (e : Event) : (s.emit e).disp = s.disp := by
  cases e with
  | pin p l => cases p <;> rfl
  | blk bs => rfl

@[simp] theorem State.emit_blt (s : State) (e : Event) : (s.emit e).blt = s.blt := by
  cases e with
  | pin p l => cases p <;> rfl
  | blk bs => rfl

@[simp] theorem State.emit_out (s : State) (e : Event) : (s.emit e).out = s.out ++ [e] := by
  cases e with
  | pin p l => cases p <;> rfl
  | blk bs => rfl

@[simp] theorem State.emit_stg (s : State) (e : Event) : (s.emit e).stg = s.stg := by
  cases e with
  | pin p l => cases p <;> rfl
  | blk bs => rfl

@[simp] theorem State.emit_sn (s : State) (e : Event) : (s.emit e).sn = s.sn := by
  cases e with
  | pin p l => cases p <;> rfl
  | blk bs => rfl

@[simp] theorem State.emit_busy (s : State) (e : Event) : (s.emit e).busy = s.busy := by
  cases e with
  | pin p l => cases p <;> rfl
  | blk bs => rfl

@[simp] theorem State.emit_inputs (s : State) (e : Event) : (s.emit e).inputs = s.inputs := by
  cases e with
  | pin p l => cases p <;> rfl
  | blk bs => rfl

@[simp] theorem State.emit_frames (s : State) (e : Event) : (s.emit e).frames = s.frames := by
  cases e with
  | pin p l => cases p <;> rfl
  | blk bs => rfl

/-! The fields after `stage`. -/

@[simp] theorem State.stage_cfg (s : State) (V : BitVec 144) (n : Fin 19) : (s.stage V n).cfg = s.cfg :=
    rfl

@[simp] theorem State.stage_mem (s : State) (V : BitVec 144) (n : Fin 19) : (s.stage V n).mem = s.mem :=
    rfl

@[simp] theorem State.stage_disp (s : State) (V : BitVec 144) (n : Fin 19) : (s.stage V n).disp = s.disp :=
    rfl

@[simp] theorem State.stage_blt (s : State) (V : BitVec 144) (n : Fin 19) : (s.stage V n).blt = s.blt :=
    rfl

@[simp] theorem State.stage_pCs (s : State) (V : BitVec 144) (n : Fin 19) : (s.stage V n).pCs = s.pCs :=
    rfl

@[simp] theorem State.stage_pClk (s : State) (V : BitVec 144) (n : Fin 19) : (s.stage V n).pClk = s.pClk :=
    rfl

@[simp] theorem State.stage_pData (s : State) (V : BitVec 144) (n : Fin 19) : (s.stage V n).pData = s.pData :=
    rfl

@[simp] theorem State.stage_pBl (s : State) (V : BitVec 144) (n : Fin 19) : (s.stage V n).pBl = s.pBl :=
    rfl

@[simp] theorem State.stage_out (s : State) (V : BitVec 144) (n : Fin 19) : (s.stage V n).out = s.out :=
    rfl

@[simp] theorem State.stage_stg (s : State) (V : BitVec 144) (n : Fin 19) : (s.stage V n).stg = stagedImage V n s.stg :=
    rfl

@[simp] theorem State.stage_sn (s : State) (V : BitVec 144) (n : Fin 19) : (s.stage V n).sn = n :=
    rfl

@[simp] theorem State.stage_busy (s : State) (V : BitVec 144) (n : Fin 19) : (s.stage V n).busy = s.busy :=
    rfl

@[simp] theorem State.stage_inputs (s : State) (V : BitVec 144) (n : Fin 19) : (s.stage V n).inputs = s.inputs :=
    rfl

@[simp] theorem State.stage_frames (s : State) (V : BitVec 144) (n : Fin 19) : (s.stage V n).frames = s.frames :=
    rfl

/-! The fields after `reverse`. -/

@[simp] theorem State.reverse_cfg (s : State) : (s.reverse).cfg = s.cfg := rfl

@[simp] theorem State.reverse_mem (s : State) : (s.reverse).mem = s.mem := rfl

@[simp] theorem State.reverse_disp (s : State) : (s.reverse).disp = s.disp := rfl

@[simp] theorem State.reverse_blt (s : State) : (s.reverse).blt = s.blt := rfl

@[simp] theorem State.reverse_pCs (s : State) : (s.reverse).pCs = s.pCs := rfl

@[simp] theorem State.reverse_pClk (s : State) : (s.reverse).pClk = s.pClk := rfl

@[simp] theorem State.reverse_pData (s : State) : (s.reverse).pData = s.pData := rfl

@[simp] theorem State.reverse_pBl (s : State) : (s.reverse).pBl = s.pBl := rfl

@[simp] theorem State.reverse_out (s : State) : (s.reverse).out = s.out := rfl

@[simp] theorem State.reverse_stg (s : State) : (s.reverse).stg = reversedImage s.sn s.stg := rfl

@[simp] theorem State.reverse_sn (s : State) : (s.reverse).sn = s.sn := rfl

@[simp] theorem State.reverse_busy (s : State) : (s.reverse).busy = s.busy := rfl

@[simp] theorem State.reverse_inputs (s : State) : (s.reverse).inputs = s.inputs := rfl

@[simp] theorem State.reverse_frames (s : State) : (s.reverse).frames = s.frames := rfl

/-! The fields after `discard`. -/

@[simp] theorem State.discard_cfg (s : State) : (s.discard).cfg = s.cfg := rfl

@[simp] theorem State.discard_mem (s : State) : (s.discard).mem = s.mem := rfl

@[simp] theorem State.discard_disp (s : State) : (s.discard).disp = s.disp := rfl

@[simp] theorem State.discard_blt (s : State) : (s.discard).blt = s.blt := rfl

@[simp] theorem State.discard_pCs (s : State) : (s.discard).pCs = s.pCs := rfl

@[simp] theorem State.discard_pClk (s : State) : (s.discard).pClk = s.pClk := rfl

@[simp] theorem State.discard_pData (s : State) : (s.discard).pData = s.pData := rfl

@[simp] theorem State.discard_pBl (s : State) : (s.discard).pBl = s.pBl := rfl

@[simp] theorem State.discard_out (s : State) : (s.discard).out = s.out := rfl

@[simp] theorem State.discard_stg (s : State) : (s.discard).stg = Config.deadStaging s.frames := rfl

@[simp] theorem State.discard_sn (s : State) : (s.discard).sn = Config.deadLength s.frames := rfl

@[simp] theorem State.discard_busy (s : State) : (s.discard).busy = s.busy := rfl

@[simp] theorem State.discard_inputs (s : State) : (s.discard).inputs = s.inputs := rfl

@[simp] theorem State.discard_frames (s : State) : (s.discard).frames = s.frames + 1 := rfl

/-! The fields after `take`. -/

@[simp] theorem State.take_cfg (s : State) (rest : List Input) : (s.take rest).cfg = s.cfg := rfl

@[simp] theorem State.take_mem (s : State) (rest : List Input) : (s.take rest).mem = s.mem := rfl

@[simp] theorem State.take_disp (s : State) (rest : List Input) : (s.take rest).disp = s.disp := rfl

@[simp] theorem State.take_blt (s : State) (rest : List Input) : (s.take rest).blt = s.blt := rfl

@[simp] theorem State.take_pCs (s : State) (rest : List Input) : (s.take rest).pCs = s.pCs := rfl

@[simp] theorem State.take_pClk (s : State) (rest : List Input) : (s.take rest).pClk = s.pClk := rfl

@[simp] theorem State.take_pData (s : State) (rest : List Input) : (s.take rest).pData = s.pData :=
    rfl

@[simp] theorem State.take_pBl (s : State) (rest : List Input) : (s.take rest).pBl = s.pBl := rfl

@[simp] theorem State.take_out (s : State) (rest : List Input) : (s.take rest).out = s.out := rfl

@[simp] theorem State.take_stg (s : State) (rest : List Input) : (s.take rest).stg = s.stg := rfl

@[simp] theorem State.take_sn (s : State) (rest : List Input) : (s.take rest).sn = s.sn := rfl

@[simp] theorem State.take_busy (s : State) (rest : List Input) : (s.take rest).busy = true := rfl

@[simp] theorem State.take_inputs (s : State) (rest : List Input) : (s.take rest).inputs = rest :=
    rfl

@[simp] theorem State.take_frames (s : State) (rest : List Input) : (s.take rest).frames = s.frames :=
    rfl

/-! The fields after `release`. -/

@[simp] theorem State.release_cfg (s : State) : (s.release).cfg = s.cfg := rfl

@[simp] theorem State.release_mem (s : State) : (s.release).mem = s.mem := rfl

@[simp] theorem State.release_disp (s : State) : (s.release).disp = s.disp := rfl

@[simp] theorem State.release_blt (s : State) : (s.release).blt = s.blt := rfl

@[simp] theorem State.release_pCs (s : State) : (s.release).pCs = s.pCs := rfl

@[simp] theorem State.release_pClk (s : State) : (s.release).pClk = s.pClk := rfl

@[simp] theorem State.release_pData (s : State) : (s.release).pData = s.pData := rfl

@[simp] theorem State.release_pBl (s : State) : (s.release).pBl = s.pBl := rfl

@[simp] theorem State.release_out (s : State) : (s.release).out = s.out := rfl

@[simp] theorem State.release_stg (s : State) : (s.release).stg = s.stg := rfl

@[simp] theorem State.release_sn (s : State) : (s.release).sn = s.sn := rfl

@[simp] theorem State.release_busy (s : State) : (s.release).busy = false := rfl

@[simp] theorem State.release_inputs (s : State) : (s.release).inputs = s.inputs := rfl

@[simp] theorem State.release_frames (s : State) : (s.release).frames = s.frames := rfl

/-! The fields after `resetStart`. -/

@[simp] theorem State.resetStart_cfg (s : State) : (s.resetStart).cfg = s.cfg := rfl

@[simp] theorem State.resetStart_mem (s : State) : (s.resetStart).mem = [] := rfl

@[simp] theorem State.resetStart_disp (s : State) : (s.resetStart).disp = false := rfl

@[simp] theorem State.resetStart_blt (s : State) : (s.resetStart).blt = false := rfl

@[simp] theorem State.resetStart_pCs (s : State) : (s.resetStart).pCs = none := rfl

@[simp] theorem State.resetStart_pClk (s : State) : (s.resetStart).pClk = none := rfl

@[simp] theorem State.resetStart_pData (s : State) : (s.resetStart).pData = none := rfl

@[simp] theorem State.resetStart_pBl (s : State) : (s.resetStart).pBl = none := rfl

@[simp] theorem State.resetStart_out (s : State) : (s.resetStart).out = [] := rfl

@[simp] theorem State.resetStart_stg (s : State) : (s.resetStart).stg = s.stg := rfl

@[simp] theorem State.resetStart_sn (s : State) : (s.resetStart).sn = s.sn := rfl

@[simp] theorem State.resetStart_busy (s : State) : (s.resetStart).busy = true := rfl

@[simp] theorem State.resetStart_inputs (s : State) : (s.resetStart).inputs = s.inputs := rfl

@[simp] theorem State.resetStart_frames (s : State) : (s.resetStart).frames = s.frames := rfl

/-! The latches after an event (R28). -/

theorem State.emit_latch (s : State) (e : Event) (p : Pin) :
    (s.emit e).latch p = (match e with
      | .pin q l => if q = p then some l else s.latch p
      | .blk _ => s.latch p) := by
  cases e with
  | pin q l => cases q <;> cases p <;> rfl
  | blk bs => cases p <;> rfl

/-! The state after reset (R35). -/

@[simp] theorem State.resetOf_cfg (c : WFConfig) : (State.resetOf c).cfg = c := rfl

@[simp] theorem State.resetOf_mem (c : WFConfig) : (State.resetOf c).mem = [] := rfl

@[simp] theorem State.resetOf_out (c : WFConfig) : (State.resetOf c).out = initEvents c := rfl

@[simp] theorem State.resetOf_busy (c : WFConfig) : (State.resetOf c).busy = false := rfl

@[simp] theorem State.resetOf_inputs (c : WFConfig) : (State.resetOf c).inputs = [] := rfl

end Sys2Proof.Machine
end

