-- ==== Sys2Proof/Laws/Buffer.lean ====
section
/-! SUPPORT. The laws of the display buffer: what a byte reads after a write (spec/20_memory.md R51,
R52), what a bit reads after a set or a clear, and that the operations on the buffer change nothing
else. -/

namespace Sys2Proof.Machine

/-! Reading after writing. -/

theorem State.dbRead_of_mem_eq {s t : State} (hc : t.cfg = s.cfg) (hm : t.mem = s.mem) (i : Index) :
    t.dbRead i = s.dbRead i := by
  unfold State.dbRead
  rw [hc, hm]

/-- What every index reads after a write: the header is not written (R52). -/
theorem State.dbRead_dbWrite (s : State) (i j : Index) (v : Byte) :
    (s.dbWrite i v).dbRead j = if j = i ∧ 2 ≤ i.val then v else s.dbRead j := by
  unfold State.dbWrite
  by_cases hi : i.val < 2
  · rw [if_pos hi, if_neg (fun h => by omega)]
  · rw [if_neg hi]
    unfold State.dbRead
    by_cases hj : j = i
    · subst hj
      rw [if_neg (by omega), if_neg (by omega), if_pos ⟨rfl, by omega⟩]
      exact Memory.read_write_same _ _ _
    · rw [if_neg (c := j = i ∧ 2 ≤ i.val) (fun h => hj h.1)]
      have : j.val ≠ i.val := fun h => hj (Fin.ext h)
      rw [Memory.read_write_other _ _ this]

theorem State.dbRead_setBits (s : State) (off j : Index) (m : Byte) :
    (s.setBits off m).dbRead j = if j = off ∧ 2 ≤ off.val then s.dbRead off ||| m else s.dbRead j :=
  s.dbRead_dbWrite off j _

theorem State.dbRead_clearBits (s : State) (off j : Index) (m : Byte) :
    (s.clearBits off m).dbRead j =
      if j = off ∧ 2 ≤ off.val then s.dbRead off &&& ~~~m else s.dbRead j :=
  s.dbRead_dbWrite off j _

/-- What every bit reads after a set. -/
theorem State.bit_setBits (s : State) (off i : Index) (m : Byte) (b : Nat) :
    (s.setBits off m).bit i b =
      (s.bit i b || (decide (i = off) && decide (2 ≤ off.val) && m.getLsbD b)) := by
  unfold State.bit
  rw [State.dbRead_setBits]
  by_cases h : i = off ∧ 2 ≤ off.val
  · obtain ⟨rfl, h2⟩ := h
    simp [h2]
  · rw [if_neg h]
    by_cases h1 : i = off
    · have : ¬ 2 ≤ off.val := fun h2 => h ⟨h1, h2⟩
      simp [this]
    · simp [h1]

/-- What every bit reads after a clear. -/
theorem State.bit_clearBits (s : State) (off i : Index) (m : Byte) (b : Nat) :
    (s.clearBits off m).bit i b =
      (s.bit i b && !(decide (i = off) && decide (2 ≤ off.val) && m.getLsbD b)) := by
  unfold State.bit
  rw [State.dbRead_clearBits]
  by_cases h : i = off ∧ 2 ≤ off.val
  · obtain ⟨rfl, h2⟩ := h
    by_cases hb : b < 8
    · simp [h2, hb]
    · simp [BitVec.getLsbD_of_ge _ _ (Nat.le_of_not_lt hb)]
  · rw [if_neg h]
    by_cases h1 : i = off
    · have : ¬ 2 ≤ off.val := fun h2 => h ⟨h1, h2⟩
      simp [this]
    · simp [h1]

/-! Operations that change the buffer and nothing else. -/

/-- `t` is `s` but for the data region. -/
def OnlyBuffer (s t : State) : Prop := t = { s with mem := t.mem }

theorem OnlyBuffer.refl (s : State) : OnlyBuffer s s := rfl

theorem OnlyBuffer.trans {s t u : State} (h : OnlyBuffer s t) (k : OnlyBuffer t u) : OnlyBuffer s u := by
  unfold OnlyBuffer at *
  rw [h] at k
  exact k

theorem OnlyBuffer.cfg_eq {s t : State} (h : OnlyBuffer s t) : t.cfg = s.cfg := by rw [h]

theorem OnlyBuffer.foldl {α : Type} {f : State → α → State} (hf : ∀ s a, OnlyBuffer s (f s a)) :
    ∀ (l : List α) (s : State), OnlyBuffer s (l.foldl f s)
  | [], s => OnlyBuffer.refl s
  | a :: l, s => (hf s a).trans (OnlyBuffer.foldl hf l (f s a))

theorem State.dbWrite_onlyBuffer (s : State) (i : Index) (v : Byte) : OnlyBuffer s (s.dbWrite i v) := by
  unfold State.dbWrite
  split
  · exact OnlyBuffer.refl s
  · rfl

theorem State.setBits_onlyBuffer (s : State) (off : Index) (m : Byte) : OnlyBuffer s (s.setBits off m) :=
  s.dbWrite_onlyBuffer _ _

theorem State.clearBits_onlyBuffer (s : State) (off : Index) (m : Byte) :
    OnlyBuffer s (s.clearBits off m) :=
  s.dbWrite_onlyBuffer _ _

theorem State.segWrite_onlyBuffer (s : State) (loc : Locator) (v : Bool) :
    OnlyBuffer s (s.segWrite loc v) := by
  unfold State.segWrite
  split
  · exact s.setBits_onlyBuffer _ _
  · exact s.clearBits_onlyBuffer _ _

theorem State.clearDps_onlyBuffer (s : State) : OnlyBuffer s s.clearDps :=
  OnlyBuffer.foldl (fun s loc => s.segWrite_onlyBuffer loc false) _ s

theorem State.setDp_onlyBuffer (s : State) (pos : Int) : OnlyBuffer s (s.setDp pos) := by
  unfold State.setDp
  split
  · exact s.segWrite_onlyBuffer _ _
  · exact OnlyBuffer.refl s

theorem State.clearData_onlyBuffer (s : State) : OnlyBuffer s s.clearData :=
  OnlyBuffer.foldl (fun s i => s.dbWrite_onlyBuffer i 0) _ s

theorem State.pairWrite_onlyBuffer (s : State) (locA locB : Locator) (en mode : Bool) :
    OnlyBuffer s (s.pairWrite locA locB en mode) := by
  unfold State.pairWrite
  split <;> exact (s.segWrite_onlyBuffer _ _).trans (State.segWrite_onlyBuffer _ _ _)

theorem State.batteryWrite_onlyBuffer (s : State) (p : Nat) : OnlyBuffer s (s.batteryWrite p) :=
  OnlyBuffer.foldl (f := fun s (g : Locator × Nat) => s.segWrite g.1 (decide (p > g.2)))
    (fun s g => s.segWrite_onlyBuffer g.1 _) _ s

theorem State.signalWrite_onlyBuffer (s : State) (bars : Nat) : OnlyBuffer s (s.signalWrite bars) :=
  ((s.segWrite_onlyBuffer _ _).trans (State.segWrite_onlyBuffer _ _ _)).trans
    (State.segWrite_onlyBuffer _ _ _)

theorem State.clearCell_onlyBuffer (s : State) (k : Fin 6) : OnlyBuffer s (s.clearCell k) :=
  ((s.clearBits_onlyBuffer _ _).trans (State.clearBits_onlyBuffer _ _ _)).trans
    (State.clearBits_onlyBuffer _ _ _)

theorem State.putCell_onlyBuffer (s : State) (k : Fin 6) (ch : Byte) : OnlyBuffer s (s.putCell k ch) := by
  have h := ((s.clearCell_onlyBuffer k).trans (State.setBits_onlyBuffer _ s.cfg.cell[k].oH
    ((split (glyphOf s.cfg ch)).1.setWidth 8 <<< s.cfg.cell[k].shH))).trans
      (State.setBits_onlyBuffer _ s.cfg.cell[k].oL ((split (glyphOf s.cfg ch)).2.1.setWidth 8))
  unfold State.putCell
  dsimp only
  split
  · exact h.trans (State.setBits_onlyBuffer _ _ _)
  · exact h

theorem State.putText_onlyBuffer (s : State) (t : Vector Byte 6) : OnlyBuffer s (s.putText t) :=
  OnlyBuffer.foldl (fun s (k : Fin 6) => s.putCell_onlyBuffer k t[k]) _ s

theorem State.showInteger_onlyBuffer (s : State) (v : Int) : OnlyBuffer s (s.showInteger v) :=
  (s.putText_onlyBuffer _).trans (State.clearDps_onlyBuffer _)

theorem State.showScaled_onlyBuffer (s : State) (v : Int) (p : Nat) : OnlyBuffer s (s.showScaled v p) :=
  (s.showInteger_onlyBuffer v).trans (State.setDp_onlyBuffer _ _)

/-- Every write to the buffer keeps the canonical form. -/
theorem State.dbWrite_canonical {s : State} (i : Index) (v : Byte) (h : MemoryCanonical s) :
    MemoryCanonical (s.dbWrite i v) := by
  unfold MemoryCanonical State.dbWrite at *
  split
  · exact h
  · exact Memory.wf_write v ⟨by omega, by omega⟩ h

/-- The memory after reset is in its canonical form. -/
theorem State.resetOf_canonical (c : WFConfig) : MemoryCanonical (State.resetOf c) := Memory.wf_nil

end Sys2Proof.Machine
end

