-- ==== Sys2Proof/Laws/Frames.lean ====
section
/-! SUPPORT. The laws of the trace and of the frame serializer: what emitting a list of events leaves
(spec/10_state.md R28), and what the staging register holds when a frame is streamed from it
(spec/43_serializer.md R163 to R165). -/

namespace Sys2Proof.Machine

/-- The trace grows by exactly the events emitted, in order. -/
theorem State.emitAll_out (s : State) (es : List Event) : (s.emitAll es).out = s.out ++ es := by
  unfold State.emitAll
  induction es generalizing s with
  | nil => simp
  | cons e rest ih => simp [ih]

/-- What emitting events does not touch. -/
theorem State.emitAll_frame (s : State) (es : List Event) :
    (s.emitAll es).cfg = s.cfg ∧ (s.emitAll es).mem = s.mem ∧ (s.emitAll es).disp = s.disp
      ∧ (s.emitAll es).blt = s.blt ∧ (s.emitAll es).stg = s.stg ∧ (s.emitAll es).sn = s.sn
      ∧ (s.emitAll es).busy = s.busy ∧ (s.emitAll es).inputs = s.inputs
      ∧ (s.emitAll es).frames = s.frames := by
  unfold State.emitAll
  induction es generalizing s with
  | nil => simp
  | cons e rest ih => simpa using ih (s.emit e)

/-- Every latch holds the last level emitted on its pin, or what it held before. -/
theorem State.emitAll_latch (s : State) (es : List Event) (p : Pin) :
    (s.emitAll es).latch p = (lastLevel p es).or (s.latch p) := by
  unfold State.emitAll
  induction es generalizing s with
  | nil => rfl
  | cons e rest ih =>
    rw [List.foldl_cons, ih, State.emit_latch]
    cases e with
    | pin q l => cases h : lastLevel p rest <;> by_cases hq : q = p <;> simp [lastLevel, h, hq]
    | blk bs => rfl

theorem stagedImage_get (V : BitVec 144) (n : Fin 19) (old : Vector Byte 18) (i : Nat) (h : i < 18) :
    (stagedImage V n old)[i] = if i < n.val then V.extractLsb' (8 * i) 8 else old[i] := by
  unfold stagedImage
  simp

theorem reversedImage_get (n : Fin 19) (old : Vector Byte 18) (i : Nat) (h : i < 18) :
    (reversedImage n old)[i] =
      if h' : i < n.val then old[n.val - 1 - i]'(by omega) else old[i] := by
  unfold reversedImage
  simp

/-- "After stage(V, n) and reverse(), S[i] = W[i] for every i" (R164): the staging register streams the
wire bytes of the frame. -/
theorem State.staged_reverse_stage (s : State) (V : BitVec 144) (n : Fin 19) :
    (s.stage V n).reverse.staged = wireBytes V n.val := by
  unfold State.staged wireBytes
  apply List.ext_getElem
  · simp
    omega
  · intro i h₁ h₂
    simp only [List.length_map, List.length_range] at h₂
    have hi : i < 18 := by omega
    simp only [State.reverse_stg, State.stage_stg, State.stage_sn, List.getElem_take,
      Vector.getElem_toList, List.getElem_map, List.getElem_range, wireByte]
    rw [reversedImage_get _ _ _ hi, dif_pos h₂, stagedImage_get _ _ _ _ (by omega), if_pos (by omega)]

@[simp] theorem wireBytes_length (V : BitVec 144) (n : Nat) : (wireBytes V n).length = n := by
  simp [wireBytes]

/-- What sending a frame does not touch. -/
theorem State.wrFrame_frame (s : State) (V : BitVec 144) (n : Fin 19) :
    (s.wrFrame V n).cfg = s.cfg ∧ (s.wrFrame V n).mem = s.mem ∧ (s.wrFrame V n).disp = s.disp
      ∧ (s.wrFrame V n).blt = s.blt ∧ (s.wrFrame V n).busy = s.busy
      ∧ (s.wrFrame V n).inputs = s.inputs ∧ (s.wrFrame V n).frames = s.frames + 1 := by
  have h := State.emitAll_frame (s.stage V n).reverse
    (frameEvents s.cfg (s.stage V n).reverse.staged)
  refine ⟨h.1, h.2.1, h.2.2.1, h.2.2.2.1, h.2.2.2.2.2.2.1, h.2.2.2.2.2.2.2.1, ?_⟩
  exact congrArg (· + 1) h.2.2.2.2.2.2.2.2

/-- Sending a frame leaves every byte of the buffer as it was (R166). -/
theorem State.dbRead_wrFrame (s : State) (V : BitVec 144) (n : Fin 19) (i : Index) :
    (s.wrFrame V n).dbRead i = s.dbRead i := by
  unfold State.dbRead
  rw [(s.wrFrame_frame V n).1, (s.wrFrame_frame V n).2.1]

end Sys2Proof.Machine
end

