-- ==== Sys2Proof/Laws/PerInstr.lean ====
section
/-! SUPPORT. Lemmas about every operation as syntax, one for each constructor. -/

namespace Sys2Proof.Laws

open Sys2Proof.Machine

/-- The opcode of a request word is read back (R71). -/
theorem opc_request (opc a : Byte) (b : BitVec 48) : Req.opc (request opc a b) = opc := by
  unfold Req.opc request
  ext i hi
  simp only [BitVec.getElem_extractLsb', BitVec.getLsbD_append]
  have h1 : ¬ 56 + i < 48 := by omega
  have h2 : ¬ 56 + i - 48 < 8 := by omega
  have h3 : 56 + i - 48 - 8 = i := by omega
  simp [h1, h2, h3, BitVec.getLsbD_eq_getElem hi]

/-- The opcode that R72 gives an operation, none for the wire frame. -/
def opcodeOf : Instr → Option Byte
  | .wrcmd .. => some 0x01
  | .flush => some 0x02
  | .clear => some 0x03
  | .dispon => some 0x04
  | .dispoff => some 0x05
  | .blon => some 0x06
  | .bloff => some 0x07
  | .prtxt .. => some 0x10
  | .print _ => some 0x11
  | .prfix .. => some 0x12
  | .prflt .. => some 0x13
  | .icon .. => some 0x20
  | .icon2 .. => some 0x21
  | .batt _ => some 0x22
  | .signal _ => some 0x23
  | .cmdframe .. => none

/-- The opcode of a word, none for a wire frame. -/
def wordOpcode : FetchWord → Option Byte
  | .req w => some (Req.opc w)
  | .wire _ => none

/-- R72: the encoder writes an operation's own opcode. -/
def EncodedOpcode.Statement (i : Instr) : Prop := wordOpcode (encode i) = opcodeOf i

theorem EncodedOpcode.wrcmd (type : BitVec 4) (operand : Byte) :
    EncodedOpcode.Statement (.wrcmd type operand) := congrArg some (opc_request _ _ _)

theorem EncodedOpcode.flush :
    EncodedOpcode.Statement .flush := congrArg some (opc_request _ _ _)

theorem EncodedOpcode.clear :
    EncodedOpcode.Statement .clear := congrArg some (opc_request _ _ _)

theorem EncodedOpcode.dispon :
    EncodedOpcode.Statement .dispon := congrArg some (opc_request _ _ _)

theorem EncodedOpcode.dispoff :
    EncodedOpcode.Statement .dispoff := congrArg some (opc_request _ _ _)

theorem EncodedOpcode.blon :
    EncodedOpcode.Statement .blon := congrArg some (opc_request _ _ _)

theorem EncodedOpcode.bloff :
    EncodedOpcode.Statement .bloff := congrArg some (opc_request _ _ _)

theorem EncodedOpcode.prtxt (len : BitVec 3) (c0 c1 c2 c3 c4 c5 : Byte) :
    EncodedOpcode.Statement (.prtxt len c0 c1 c2 c3 c4 c5) := congrArg some (opc_request _ _ _)

theorem EncodedOpcode.print (n : BitVec 32) :
    EncodedOpcode.Statement (.print n) := congrArg some (opc_request _ _ _)

theorem EncodedOpcode.prfix (mult : BitVec 24) (m : BitVec 32) :
    EncodedOpcode.Statement (.prfix mult m) := congrArg some (opc_request _ _ _)

theorem EncodedOpcode.prflt (prec : BitVec 3) (x : BitVec 32) :
    EncodedOpcode.Statement (.prflt prec x) := congrArg some (opc_request _ _ _)

theorem EncodedOpcode.icon (id : Byte) (en : Bool) :
    EncodedOpcode.Statement (.icon id en) := congrArg some (opc_request _ _ _)

theorem EncodedOpcode.icon2 (id : Byte) (en mode : Bool) :
    EncodedOpcode.Statement (.icon2 id en mode) := congrArg some (opc_request _ _ _)

theorem EncodedOpcode.batt (pct : Byte) :
    EncodedOpcode.Statement (.batt pct) := congrArg some (opc_request _ _ _)

theorem EncodedOpcode.signal (pct : Byte) :
    EncodedOpcode.Statement (.signal pct) := congrArg some (opc_request _ _ _)

theorem EncodedOpcode.cmdframe (t : BitVec 4) (o : Byte) :
    EncodedOpcode.Statement (.cmdframe t o) := rfl

end Sys2Proof.Laws
end

