-- ==== Sys2Proof/Laws/Port.lean ====
section
/-! SUPPORT. No operation looks at the request port or at BUSY (spec/10_state.md R34,
spec/70_reset_and_hazards.md R258): an operation on a state with another port ends in the same state with
that port. -/

namespace Sys2Proof.Machine

@[simp] theorem State.withPort_cfg (s : State) (q : List Input) (b : Bool) : (s.withPort q b).cfg = s.cfg :=
  rfl

@[simp] theorem State.withPort_inputs (s : State) (q : List Input) (b : Bool) :
    (s.withPort q b).inputs = q := rfl

@[simp] theorem State.withPort_busy (s : State) (q : List Input) (b : Bool) : (s.withPort q b).busy = b :=
  rfl

@[simp] theorem State.withPort_frames (s : State) (q : List Input) (b : Bool) :
    (s.withPort q b).frames = s.frames := rfl

@[simp] theorem State.withPort_withPort (s : State) (q q' : List Input) (b b' : Bool) :
    (s.withPort q b).withPort q' b' = s.withPort q' b' := rfl

@[simp] theorem State.withPort_self (s : State) : s.withPort s.inputs s.busy = s := rfl

@[simp] theorem State.withPort_dbRead (s : State) (q : List Input) (b : Bool) (i : Index) :
    (s.withPort q b).dbRead i = s.dbRead i := rfl

/-- A loop whose body does not look at the port does not look at it. -/
theorem State.foldl_withPort {α : Type} (f : State → α → State) (q : List Input) (b : Bool)
    (hf : ∀ s a, f (s.withPort q b) a = (f s a).withPort q b) (xs : List α) (s : State) :
    xs.foldl f (s.withPort q b) = (xs.foldl f s).withPort q b := by
  induction xs generalizing s with
  | nil => rfl
  | cons x rest ih => rw [List.foldl_cons, List.foldl_cons, hf, ih]

/-! The operations on the buffer. -/

@[simp] theorem State.withPort_dbWrite (s : State) (q : List Input) (b : Bool) (i : Index) (v : Byte) :
    (s.withPort q b).dbWrite i v = (s.dbWrite i v).withPort q b := by
  unfold State.dbWrite
  split <;> rfl

@[simp] theorem State.withPort_setBits (s : State) (q : List Input) (b : Bool) (i : Index) (m : Byte) :
    (s.withPort q b).setBits i m = (s.setBits i m).withPort q b := by simp [State.setBits]

@[simp] theorem State.withPort_clearBits (s : State) (q : List Input) (b : Bool) (i : Index) (m : Byte) :
    (s.withPort q b).clearBits i m = (s.clearBits i m).withPort q b := by simp [State.clearBits]

@[simp] theorem State.withPort_segWrite (s : State) (q : List Input) (b : Bool) (loc : Locator) (v : Bool) :
    (s.withPort q b).segWrite loc v = (s.segWrite loc v).withPort q b := by cases v <;> simp [State.segWrite]

@[simp] theorem State.withPort_clearDps (s : State) (q : List Input) (b : Bool) :
    (s.withPort q b).clearDps = s.clearDps.withPort q b :=
  State.foldl_withPort _ q b (fun s loc => s.withPort_segWrite q b loc false) _ s

@[simp] theorem State.withPort_setDp (s : State) (q : List Input) (b : Bool) (pos : Int) :
    (s.withPort q b).setDp pos = (s.setDp pos).withPort q b := by
  unfold State.setDp
  split <;> simp

@[simp] theorem State.withPort_clearData (s : State) (q : List Input) (b : Bool) :
    (s.withPort q b).clearData = s.clearData.withPort q b :=
  State.foldl_withPort _ q b (fun s i => s.withPort_dbWrite q b i 0) _ s

@[simp] theorem State.withPort_pairWrite (s : State) (q : List Input) (b : Bool) (locA locB : Locator)
    (en mode : Bool) :
    (s.withPort q b).pairWrite locA locB en mode = (s.pairWrite locA locB en mode).withPort q b := by
  cases en <;> cases mode <;> simp [State.pairWrite]

@[simp] theorem State.withPort_batteryWrite (s : State) (q : List Input) (b : Bool) (p : Nat) :
    (s.withPort q b).batteryWrite p = (s.batteryWrite p).withPort q b :=
  State.foldl_withPort _ q b (fun s g => s.withPort_segWrite q b g.1 _) _ s

@[simp] theorem State.withPort_signalWrite (s : State) (q : List Input) (b : Bool) (bars : Nat) :
    (s.withPort q b).signalWrite bars = (s.signalWrite bars).withPort q b := by simp [State.signalWrite]

@[simp] theorem State.withPort_clearCell (s : State) (q : List Input) (b : Bool) (k : Fin 6) :
    (s.withPort q b).clearCell k = (s.clearCell k).withPort q b := by simp [State.clearCell]

@[simp] theorem State.withPort_putCell (s : State) (q : List Input) (b : Bool) (k : Fin 6) (ch : Byte) :
    (s.withPort q b).putCell k ch = (s.putCell k ch).withPort q b := by
  simp only [State.putCell, State.withPort_cfg, State.withPort_clearCell, State.withPort_setBits]
  split <;> rfl

@[simp] theorem State.withPort_putText (s : State) (q : List Input) (b : Bool) (t : Vector Byte 6) :
    (s.withPort q b).putText t = (s.putText t).withPort q b :=
  State.foldl_withPort _ q b (fun s k => s.withPort_putCell q b k t[k]) _ s

@[simp] theorem State.withPort_showInteger (s : State) (q : List Input) (b : Bool) (v : Int) :
    (s.withPort q b).showInteger v = (s.showInteger v).withPort q b := by simp [State.showInteger]

@[simp] theorem State.withPort_showScaled (s : State) (q : List Input) (b : Bool) (v : Int) (p : Nat) :
    (s.withPort q b).showScaled v p = (s.showScaled v p).withPort q b := by simp [State.showScaled]

@[simp] theorem State.withPort_showFloat (s : State) (q : List Input) (b : Bool)
    (scale : BitVec 32 → Nat → Int) (prec : BitVec 3) (x : BitVec 32) :
    State.showFloat scale (s.withPort q b) prec x = (State.showFloat scale s prec x).withPort q b := by
  simp [State.showFloat]

/-! The trace and the serializer. -/

@[simp] theorem State.withPort_emit (s : State) (q : List Input) (b : Bool) (e : Event) :
    (s.withPort q b).emit e = (s.emit e).withPort q b := by
  cases e with
  | pin p l => cases p <;> rfl
  | blk bs => rfl

@[simp] theorem State.withPort_emitAll (s : State) (q : List Input) (b : Bool) (es : List Event) :
    (s.withPort q b).emitAll es = (s.emitAll es).withPort q b :=
  State.foldl_withPort _ q b (fun s e => s.withPort_emit q b e) _ s

@[simp] theorem State.withPort_wrFrame (s : State) (q : List Input) (b : Bool) (V : BitVec 144)
    (n : Fin 19) : (s.withPort q b).wrFrame V n = (s.wrFrame V n).withPort q b := by
  have h := State.withPort_emitAll (s.stage V n).reverse q b
    (frameEvents s.cfg (s.stage V n).reverse.staged)
  exact congrArg State.discard h

@[simp] theorem State.withPort_flush (s : State) (q : List Input) (b : Bool) :
    (s.withPort q b).flush = s.flush.withPort q b := State.withPort_wrFrame s q b s.dataFrame 18

@[simp] theorem State.withPort_wrCmd (s : State) (q : List Input) (b : Bool) (type : BitVec 4)
    (operand : Byte) : (s.withPort q b).wrCmd type operand = (s.wrCmd type operand).withPort q b :=
  State.withPort_wrFrame s q b _ 2

@[simp] theorem State.withPort_sendCmd (s : State) (q : List Input) (b : Bool) (operand : Byte) :
    (s.withPort q b).sendCmd operand = (s.sendCmd operand).withPort q b :=
  State.withPort_wrCmd s q b s.cfg.cmdType operand

/-! The operations of the opcode table. -/

/-- The outcome of an operation with another port behind it. -/
def Outcome.withPort (q : List Input) (b : Bool) :
    Host.Outcome State Fault Refusal → Host.Outcome State Fault Refusal
  | .next t => .next (t.withPort q b)
  | .fault f => .fault f
  | .refused r => .refused r

/-- No operation looks at the port or at BUSY, and none changes them. -/
theorem exec_withPort (i : Instr) (s : State) (q : List Input) (b : Bool) :
    exec i (s.withPort q b) = Outcome.withPort q b (exec i s) := by
  cases i with
  | wrcmd type operand => exact congrArg _ (s.withPort_wrCmd q b type operand)
  | flush => exact congrArg _ (s.withPort_flush q b)
  | clear => simp [exec, execClear, Outcome.withPort]
  | dispon =>
    simp only [exec, execDispon, Outcome.withPort, State.withPort_cfg, State.withPort_sendCmd]
    rfl
  | dispoff =>
    simp only [exec, execDispoff, Outcome.withPort, State.withPort_cfg, State.withPort_sendCmd]
    rfl
  | blon =>
    cases h : s.cfg.hasBl
    · simp [exec, execBlon, Outcome.withPort, h]
    · simp only [exec, execBlon, Outcome.withPort, State.withPort_cfg, h, if_true]
      rfl
  | bloff =>
    cases h : s.cfg.hasBl
    · simp [exec, execBloff, Outcome.withPort, h]
    · simp only [exec, execBloff, Outcome.withPort, State.withPort_cfg, h, if_true]
      rfl
  | prtxt len c0 c1 c2 c3 c4 c5 => simp [exec, execPrtxt, Outcome.withPort]
  | print n => simp [exec, execPrint, Outcome.withPort]
  | prfix mult m => simp [exec, execPrfix, Outcome.withPort]
  | prflt prec x => simp [exec, execPrflt, Outcome.withPort]
  | icon id en =>
    cases h : s.cfg.icon[id.toNat]? <;> simp [exec, execIcon, State.switchIcon, Outcome.withPort, h]
  | icon2 id en mode =>
    cases h : s.cfg.pair[id.toNat]? <;> simp [exec, execIcon2, State.switchPair, Outcome.withPort, h]
  | batt pct => simp [exec, execBatt, Outcome.withPort]
  | signal pct => simp [exec, execSignal, Outcome.withPort]
  | cmdframe t o => exact congrArg _ (s.withPort_wrFrame q b _ 2)

/-- Nor does applying a request. -/
theorem State.apply_withPort (s : State) (w : Req) (q : List Input) (b : Bool) :
    (s.withPort q b).apply w = Outcome.withPort q b (s.apply w) := by
  unfold State.apply
  split
  · exact exec_withPort _ s q b
  · rfl

end Sys2Proof.Machine
end

