-- ==== Sys2Proof/Tests/Slice0.lean ====
section
/-! SUPPORT. The model's own tests: the vectors of spec/95_test_vectors.md under its reference
configuration REF (the spec's own choice, for vectors only), the words of every operation, and the checks
of a configuration on ill-formed ones. The theorems are elaborated one after another: each is a kernel
evaluation, and many at once need more memory than the check gives. -/

set_option Elab.async false

namespace Sys2Proof.Tests

open Sys2Proof.Machine

/-! The reference configuration (spec/00_scope.md R7, spec/30_encoding.md R78, R85). -/

/-- The REF glyph table (R85). -/
def refGlyphs : Vector Glyph 64 :=
  #v[0x00, 0x00, 0x00, 0x00, 0x00, 0x00, 0x00, 0x00, 0x00, 0x00, 0x00, 0x00, 0x00, 0x40, 0x00, 0x00,
    0x3F, 0x06, 0x5B, 0x4F, 0x66, 0x6D, 0x7D, 0x07, 0x7F, 0x6F, 0x00, 0x00, 0x00, 0x00, 0x00, 0x00,
    0x00, 0x77, 0x7C, 0x39, 0x5E, 0x79, 0x71, 0x3D, 0x76, 0x30, 0x1E, 0x75, 0x38, 0x37, 0x54, 0x5C,
    0x73, 0x67, 0x50, 0x6D, 0x78, 0x3E, 0x1C, 0x2A, 0x49, 0x6E, 0x1B, 0x00, 0x00, 0x00, 0x00, 0x08]

/-- REF with BLOCK transport, chip select and backlight (R7). -/
def ref : Config where
  glyph := refGlyphs
  cell := #v[⟨2, 4, 3, 3, 0x80#8⟩, ⟨4, 4, 5, 5, 0x80#8⟩, ⟨6, 4, 7, 7, 0x80#8⟩, ⟨8, 4, 9, 9, 0x80#8⟩,
    ⟨10, 4, 11, 11, 0x80#8⟩, ⟨12, 4, 13, 13, 0x80#8⟩]
  dploc := #v[⟨4, 0x80#8⟩, ⟨6, 0x80#8⟩, ⟨8, 0x80#8⟩, ⟨10, 0x80#8⟩, ⟨12, 0x80#8⟩]
  icon := [⟨14, 0x10#8⟩, ⟨14, 0x20#8⟩, ⟨15, 0x01#8⟩, ⟨15, 0x80#8⟩]
  pair := [(⟨14, 0x01#8⟩, ⟨14, 0x02#8⟩)]
  bat := [(⟨16, 0x01#8⟩, 0), (⟨16, 0x02#8⟩, 25), (⟨16, 0x04#8⟩, 50), (⟨16, 0x08#8⟩, 75)]
  sigloc := #v[⟨17, 0x10#8⟩, ⟨17, 0x20#8⟩, ⟨17, 0x40#8⟩]
  hdr0 := 0xA0
  hdr1 := 0x00
  cmdType := 0x8
  cmdInit := #v[0x52, 0x30, 0x00, 0x0A, 0x02, 0x06]
  cmdLcdOn := 0x06
  cmdLcdOff := 0x04
  clampMin := -999999999
  clampMax := 999999999
  transport := .block
  hasCs := true
  hasBl := true

theorem test_ref_is_well_formed : ref.wf = true := by decide +kernel

/-- REF, BLOCK. -/
def refBlock : WFConfig := ⟨ref, test_ref_is_well_formed⟩

/-- REF, PINS, with chip select. -/
def refPins : WFConfig := ⟨{ ref with transport := .pins }, by decide +kernel⟩

/-- REF, PINS, without chip select and backlight. -/
def refBarePins : WFConfig :=
  ⟨{ ref with transport := .pins, hasCs := false, hasBl := false }, by decide +kernel⟩

/-- The state after reset under REF, BLOCK. -/
def start : State := State.resetOf refBlock

/-- The state after one step that takes the request `w` (the state itself, if the step stops). -/
def afterReq (s : State) (w : Nat) : State :=
  match step (s.withFetchWord 64 w) with
  | .next t => t
  | .fault _ => s
  | .refused _ => s

/-- What the step that takes the request `w` adds to the trace. -/
def sent (s : State) (w : Nat) : List Event := (afterReq s w).out.drop s.out.length

/-- The data region after the step that takes the request `w`. -/
def data (s : State) (w : Nat) : List Byte := (afterReq s w).dbBytes.drop 2

/-! Each check of a configuration refuses an ill-formed one (R8, R84). -/

theorem test_wf_refuses_locator_in_header :
    ({ ref with icon := [⟨1, 0x10#8⟩] } : Config).check = none := by decide +kernel

theorem test_wf_refuses_two_bit_mask :
    ({ ref with icon := [⟨14, 0x30#8⟩] } : Config).check = none := by decide +kernel

theorem test_wf_refuses_nibble_shift_3 :
    ({ ref with cell := ref.cell.set 0 ⟨2, 3, 3, 3, 0x80#8⟩ } : Config).check = none := by decide +kernel

theorem test_wf_refuses_single_bit_in_a_third_byte :
    ({ ref with cell := ref.cell.set 0 ⟨2, 4, 3, 15, 0x40#8⟩ } : Config).check = none := by decide +kernel

theorem test_wf_refuses_cell_in_one_byte :
    ({ ref with cell := ref.cell.set 0 ⟨2, 4, 2, 2, 0x08#8⟩ } : Config).check = none := by decide +kernel

theorem test_wf_refuses_overlap :
    ({ ref with icon := [⟨2, 0x10#8⟩] } : Config).check = none := by decide +kernel

theorem test_wf_refuses_clamp_not_around_zero :
    ({ ref with clampMin := 0 } : Config).check = none := by decide +kernel

theorem test_wf_refuses_clamp_beyond_32_bits :
    ({ ref with clampMax := 2147483648 } : Config).check = none := by decide +kernel

theorem test_wf_refuses_falling_thresholds :
    ({ ref with bat := [(⟨16, 0x01#8⟩, 25), (⟨16, 0x02#8⟩, 0)] } : Config).check = none := by decide +kernel

theorem test_wf_refuses_threshold_above_100 :
    ({ ref with bat := [(⟨16, 0x01#8⟩, 101)] } : Config).check = none := by decide +kernel

theorem test_wf_refuses_unsupported_glyph_not_blank :
    ({ ref with glyph := refGlyphs.set 1 0x01#7 } : Config).check = none := by decide +kernel

theorem test_wf_refuses_space_not_blank :
    ({ ref with glyph := refGlyphs.set 0 0x01#7 } : Config).check = none := by decide +kernel

/-! Decoding: a word of every operation, written out from the fields of R71 and R73 (OPC, A, then B). -/

theorem test_decode_wrcmd : decodeTableWord 64
    0b00000001_00001000_00000000_00000000_00000000_00000000_00000000_00000110 =
      some (.wrcmd 0x8#4 0x06#8) := by decide +kernel

theorem test_decode_flush : decodeTableWord 64
    0b00000010_00000000_00000000_00000000_00000000_00000000_00000000_00000000 = some .flush := by decide +kernel

theorem test_decode_clear : decodeTableWord 64
    0b00000011_00000000_00000000_00000000_00000000_00000000_00000000_00000000 = some .clear := by decide +kernel

theorem test_decode_dispon : decodeTableWord 64
    0b00000100_00000000_00000000_00000000_00000000_00000000_00000000_00000000 = some .dispon := by decide +kernel

theorem test_decode_dispoff : decodeTableWord 64
    0b00000101_00000000_00000000_00000000_00000000_00000000_00000000_00000000 = some .dispoff := by decide +kernel

theorem test_decode_blon : decodeTableWord 64
    0b00000110_00000000_00000000_00000000_00000000_00000000_00000000_00000000 = some .blon := by decide +kernel

theorem test_decode_bloff : decodeTableWord 64
    0b00000111_00000000_00000000_00000000_00000000_00000000_00000000_00000000 = some .bloff := by decide +kernel

theorem test_decode_prtxt : decodeTableWord 64
    0b00010000_00000110_01001000_01000101_01001100_01001100_01001111_00100001 =
      some (.prtxt 6#3 0x48#8 0x45#8 0x4C#8 0x4C#8 0x4F#8 0x21#8) := by decide +kernel

theorem test_decode_print : decodeTableWord 64
    0b00010001_00000000_00000000_00000000_11111111_11111111_11111011_00101110 =
      some (.print (BitVec.ofInt 32 (-1234))) := by decide +kernel

theorem test_decode_prfix : decodeTableWord 64
    0b00010010_00000001_10000110_10100000_00000000_00000001_11100010_01000000 =
      some (.prfix 100000#24 123456#32) := by decide +kernel

theorem test_decode_prflt : decodeTableWord 64
    0b00010011_00000010_00000000_00000000_01000000_01001001_00001111_11010000 =
      some (.prflt 2#3 0x40490FD0#32) := by decide +kernel

theorem test_decode_icon : decodeTableWord 64
    0b00100000_00000010_00000000_00000000_00000000_00000000_00000000_00000001 =
      some (.icon 2#8 true) := by decide +kernel

theorem test_decode_icon2 : decodeTableWord 64
    0b00100001_00000000_00000000_00000000_00000000_00000000_00000000_00000011 =
      some (.icon2 0#8 true true) := by decide +kernel

theorem test_decode_batt : decodeTableWord 64
    0b00100010_00000000_00000000_00000000_00000000_00000000_00000000_01010000 =
      some (.batt 80#8) := by decide +kernel

theorem test_decode_signal : decodeTableWord 64
    0b00100011_00000000_00000000_00000000_00000000_00000000_00000000_00101101 =
      some (.signal 45#8) := by decide +kernel

theorem test_decode_cmdframe : decodeTableWord 16 0b1000_00000110_0000 =
    some (.cmdframe 0x8#4 0x06#8) := by decide +kernel

/-- R74: the reserved words of vector V-W13. -/
theorem test_decode_rejects_reserved :
    [0x0000000000000000, 0x0800000000000000, 0x1400000000000000, 0x2400000000000000,
      0xFF00000000000000].map (decodeTableWord 64) = [none, none, none, none, none] := by decide +kernel

theorem test_decode_rejects_padding : decodeTableWord 16 0x8061 = none := by decide +kernel

/-- V-W9: the upper half of `A` and the rest of `B` are ignored. -/
theorem test_decode_ignores_unlisted_bits :
    decodeTableWord 64 0x01FFFFFFFFFFFF06 = some (.wrcmd 0xF#4 0x06#8) := by decide +kernel

/-! Reset and the transport (vectors V-R1 to V-R4, V-W4). -/

/-- V-R1. -/
theorem test_reset_block : start.out =
    [.pin .cs false, .blk [0x85, 0x20], .pin .cs true, .pin .cs false, .blk [0x83, 0x00], .pin .cs true,
      .pin .cs false, .blk [0x80, 0x00], .pin .cs true, .pin .cs false, .blk [0x80, 0xA0], .pin .cs true,
      .pin .cs false, .blk [0x80, 0x20], .pin .cs true, .pin .cs false, .blk [0x80, 0x60],
      .pin .cs true] := by decide +kernel

/-- V-R2: 300 events, the first frame sampled, and the latches. -/
theorem test_reset_pins :
    (initEvents refPins).length = 300
      ∧ sampled ((initEvents refPins).take 50) =
          [true, false, false, false, false, true, false, true,
            false, false, true, false, false, false, false, false]
      ∧ (State.resetOf refPins).pCs = some true ∧ (State.resetOf refPins).pClk = some true
      ∧ (State.resetOf refPins).pData = some false := by decide +kernel

/-- V-R3. -/
theorem test_reset_bare_pins :
    (initEvents refBarePins).length = 288 ∧ (State.resetOf refBarePins).pCs = none := by decide +kernel

/-- V-W2: the staged bytes before and after the reversal. -/
theorem test_stage_and_reverse :
    (start.stage 0x8520 2).staged = [0x20, 0x85]
      ∧ (start.stage 0x8520 2).reverse.staged = [0x85, 0x20] := by decide +kernel

/-- Asserting reset starts over (R240), and the request that stands with it is lost. -/
theorem test_reset_input :
    (match step { start with inputs := [.reset (some 0x0500000000000000#64)], busy := true, disp := false }
      with
      | .next t => t.disp && !t.busy && t.out.length == 18 && t.inputs.isEmpty
      | .fault _ => false
      | .refused _ => false) = true := by decide +kernel

/-! One step of each operation. -/

/-- V-W9: wire `F0 60`. -/
theorem test_wrcmd : sent start 0x01FFFFFFFFFFFF06 =
    [.pin .cs false, .blk [0xF0, 0x60], .pin .cs true] := by decide +kernel

/-- V-W8: the display latch does not follow WRCMD. -/
theorem test_wrcmd_keeps_disp : (afterReq start 0x0108000000000004).disp = true := by decide +kernel

/-- V-W5: 48 events over bare pins, sampled. -/
theorem test_wrcmd_pins :
    (sent (State.resetOf refBarePins) 0x0108000000000006).length = 48
      ∧ sampled (sent (State.resetOf refBarePins) 0x0108000000000006) =
          [true, false, false, false, false, false, false, false,
            false, true, true, false, false, false, false, false] := by decide +kernel

/-- V-W10. -/
theorem test_flush : sent start 0x0200000000000000 =
    [.pin .cs false, .blk [0xA0, 0, 0, 0, 0, 0, 0, 0, 0, 0, 0, 0, 0, 0, 0, 0, 0, 0], .pin .cs true] := by
  decide +kernel

/-- V-C1, shortened. -/
theorem test_clear :
    (afterReq { start with mem := [(4, 0x40), (14, 0x02), (17, 0x30)] } 0x0300000000000000).mem = [] := by
  decide +kernel

/-- V-C3. -/
theorem test_header_write_is_suppressed :
    (start.dbWrite 0 0xFF).dbRead 0 = 0xA0 ∧ (start.dbWrite 1 0xFF).dbRead 1 = 0x00 := by decide +kernel

/-- V-K1. -/
theorem test_dispoff :
    sent start 0x0500000000000000 = [.pin .cs false, .blk [0x80, 0x40], .pin .cs true]
      ∧ (afterReq start 0x0500000000000000).disp = false := by decide +kernel

/-- V-K2. -/
theorem test_dispon :
    sent start 0x0400000000000000 = [.pin .cs false, .blk [0x80, 0x60], .pin .cs true]
      ∧ (afterReq { start with disp := false } 0x0400000000000000).disp = true := by decide +kernel

/-- V-K4. -/
theorem test_blon :
    sent start 0x0600000000000000 = [.pin .bl true] ∧ (afterReq start 0x0600000000000000).blt = true
      ∧ (afterReq start 0x0600000000000000).pBl = some true := by decide +kernel

/-- V-K7: no pin, nothing. -/
theorem test_blon_without_pin :
    sent (State.resetOf refBarePins) 0x0600000000000000 = []
      ∧ (afterReq (State.resetOf refBarePins) 0x0600000000000000).blt = false := by decide +kernel

/-- V-K5. -/
theorem test_bloff :
    sent start 0x0700000000000000 = [.pin .bl false] ∧ (afterReq start 0x0700000000000000).blt = false := by
  decide +kernel

/-- V-T1. -/
theorem test_prtxt : data start 0x100648454C4C4F21 =
    [0x70, 0x06, 0x70, 0x81, 0x30, 0x80, 0x30, 0x80, 0x50, 0x84, 0, 0, 0, 0, 0, 0] := by decide +kernel

/-- V-T8: what follows the text is ignored. -/
theorem test_prtxt_short : data start 0x100241425A5A5A5A =
    [0x70, 0x07, 0x70, 0x84, 0, 0, 0, 0, 0, 0, 0, 0, 0, 0, 0, 0] := by decide +kernel

/-- V-T11: the masks of a cell write. -/
theorem test_put_cell_keeps_other_bits :
    (({ start with mem := [(2, 0x8F), (3, 0x78)] } : State).putCell 0 0x38).mem = [(2, 0xFF), (3, 0xFF)] := by
  decide +kernel

/-- V-I6. -/
theorem test_print : data start 0x11000000FFFFFB2E =
    [0, 0, 0x40, 0, 0, 0x06, 0x50, 0x83, 0x40, 0x87, 0x60, 0x06, 0, 0, 0, 0] := by decide +kernel

/-- V-I13: clamped to -999,999,999, then cut. -/
theorem test_print_clamped : data start 0x1100000080000000 =
    [0x40, 0, 0x60, 0x87, 0x60, 0x87, 0x60, 0x87, 0x60, 0x87, 0x60, 0x87, 0, 0, 0, 0] := by decide +kernel

/-- V-X10. -/
theorem test_prfix : data start 0x12000064FFFFFB2E =
    [0, 0, 0x40, 0, 0, 0x06, 0x50, 0x83, 0xC0, 0x87, 0x60, 0x06, 0, 0, 0, 0] := by decide +kernel

/-- V-X9: precision 5, the dot at position 1. -/
theorem test_prfix_five_digits : data start 0x120186A00001E240 =
    [0, 0x06, 0xD0, 0x83, 0x40, 0x87, 0x60, 0x06, 0x60, 0x85, 0x70, 0x85, 0, 0, 0, 0] := by decide +kernel

/-- The REF conversion (R149): the exact product rounded to nearest, ties away from zero. -/
def refScale (x : BitVec 32) (p : Nat) : Int :=
  let e := (x.extractLsb' 23 8).toNat
  let f := (x.extractLsb' 0 23).toNat
  let m := (if e = 0 then f else f + 8388608) * 10 ^ p
  let e := if e = 0 then 1 else e
  if 150 ≤ e then ((m * 2 ^ (e - 150) : Nat) : Int)
  else (((2 * m + 2 ^ (150 - e)) / 2 ^ (151 - e) : Nat) : Int)

/-- V-F3: the precision 5 is limited to 4 for a negative value. -/
theorem test_prflt : (start.showFloat refScale 5#3 0xC0490FD0#32).dbBytes.drop 2 =
    [0x40, 0, 0x40, 0x87, 0x80, 0x06, 0x60, 0x06, 0, 0x06, 0x70, 0x85, 0, 0, 0, 0] := by decide +kernel

/-- V-F9: -0.0 is not negative. -/
theorem test_prflt_minus_zero : (start.showFloat refScale 1#3 0x80000000#32).dbBytes.drop 10 =
    [0, 0, 0xB0, 0x87, 0, 0, 0, 0] := by decide +kernel

/-- V-F12, V-F15: the REF conversion itself. -/
theorem test_ref_scale : refScale 0x5368D4A5#32 0 = 999999995904 ∧ refScale 0x3F80A3D7#32 2 = 100 := by
  decide +kernel

/-- V-S4, its last step. -/
theorem test_icon : data { start with mem := [(15, 0x81)] } 0x2003000000000000 =
    [0, 0, 0, 0, 0, 0, 0, 0, 0, 0, 0, 0, 0, 0x01, 0, 0] := by decide +kernel

/-- V-S9: beyond the table, nothing. -/
theorem test_icon_beyond_table : (sent start 0x2004000000000001) = []
    ∧ (afterReq start 0x2004000000000001).mem = [] := by decide +kernel

/-- V-S8, its last step: the pair does not disturb the icon in its byte. -/
theorem test_icon2 : (afterReq { start with mem := [(14, 0x11)] } 0x2100000000000003).mem =
    [(14, 0x12)] := by decide +kernel

/-- V-S7. -/
theorem test_icon2_disabled : (afterReq { start with mem := [(14, 0x02)] } 0x2100000000000002).mem = [] := by
  decide +kernel

/-- V-G6 and V-G5. -/
theorem test_batt : (afterReq start 0x2200000000000033).mem = [(16, 0x07)]
    ∧ (afterReq start 0x2200000000000032).mem = [(16, 0x03)] := by decide +kernel

/-- V-G9, and a falling level. -/
theorem test_batt_clamped : (afterReq start 0x22000000000000FF).mem = [(16, 0x0F)]
    ∧ (afterReq { start with mem := [(16, 0x0F)] } 0x220000000000001E).mem = [(16, 0x03)] := by
  decide +kernel

/-- V-G12 and V-G13. -/
theorem test_signal : (afterReq start 0x230000000000001E).mem = [(17, 0x10)]
    ∧ (afterReq start 0x230000000000001F).mem = [(17, 0x30)] := by decide +kernel

/-- V-G18. -/
theorem test_signal_clamped : (afterReq start 0x2300000000000065).mem = [(17, 0x70)] := by decide +kernel

/-- The row CMDFRAME: the frame leaves as it stands. -/
theorem test_cmdframe :
    (match step (start.withFetchWord 16 0x8060) with
      | .next t => t.out.drop start.out.length
      | .fault _ => []
      | .refused _ => []) = [.pin .cs false, .blk [0x80, 0x60], .pin .cs true] := by decide +kernel

/-- V-W13: a reserved request is taken and does nothing. -/
theorem test_reserved : afterReq start 0xFF00000000000000 = start := by rfl

/-- R143: the examples of fmt6. -/
theorem test_fmt6 :
    [0, 42, -1234, 999999, -99999, 1234567, -999999].map (fun v => (fmt6 v).toList) =
      [[0x20, 0x20, 0x20, 0x20, 0x20, 0x30], [0x20, 0x20, 0x20, 0x20, 0x34, 0x32],
        [0x20, 0x2D, 0x31, 0x32, 0x33, 0x34], [0x39, 0x39, 0x39, 0x39, 0x39, 0x39],
        [0x2D, 0x39, 0x39, 0x39, 0x39, 0x39], [0x31, 0x32, 0x33, 0x34, 0x35, 0x36],
        [0x2D, 0x39, 0x39, 0x39, 0x39, 0x39]] := by decide +kernel

/-- The machine's own reset state, its configuration uninterpreted, runs each kind of word. -/
theorem test_reset_runs :
    (∃ t, step (State.reset.withFetchWord 64 0x100648454C4C4F21) = .next t)
      ∧ (∃ t, step (State.reset.withFetchWord 64 0x2002000000000001) = .next t)
      ∧ ∃ t, step (State.reset.withFetchWord 16 0x8060) = .next t :=
  ⟨⟨_, rfl⟩, ⟨_, rfl⟩, ⟨_, rfl⟩⟩

end Sys2Proof.Tests
end

