-- ==== Sys2Proof/Tests/Witnesses.lean ====
section
/-! SUPPORT. For each statement of Certificates/Slice0/Obligations.lean that has hypotheses, a concrete
state and operands that meet them together, clause by clause where it has several, at the boundaries of
the clauses' ranges. -/

set_option Elab.async false

namespace Sys2Proof.Tests

open Sys2Proof.Machine

/-! Encoding. -/

theorem witness_EncodeKeepsEveryListedBit :
    decodeRequest 0x01FFFFFFFFFFFF06#64 = .ok (.wrcmd 0xF#4 0x06#8)
      ∧ decodeFrame 0x8060#16 = .ok (.cmdframe 0x8#4 0x06#8) := by decide +kernel

theorem witness_UnlistedOperandBitsAreIgnored :
    (Req.opc 0x01F8FFFFFFFFFF06#64 = Req.opc 0x0108000000000006#64
        ∧ 0x01F8FFFFFFFFFF06#64 &&& listedBits 0x01 = 0x0108000000000006#64 &&& listedBits 0x01)
      ∧ encode (.wrcmd 0x8#4 0x06#8) = .req 0x0108000000000006#64 := by decide +kernel

theorem witness_ExactlyTheListedOpcodesDecode :
    Req.opc 0x2300000000000000#64 ∈ listedOpcodes ∧ Req.opc 0x2400000000000000#64 ∉ listedOpcodes
      ∧ Req.opc 0x0000000000000000#64 ∉ listedOpcodes ∧ Req.opc 0x0800000000000000#64 ∉ listedOpcodes := by
  decide +kernel

/-! The step, the request port and reset. -/

/-- A ready state with the request `PRINT 42` at the port and a second request after it. -/
def ready : State :=
  { start with inputs := [.word (.req 0x110000000000002A#64), .word (.req 0x0600000000000000#64)] }

theorem witness_StepCarriesOutDecodedOperation :
    ∃ rest t, ready.busy = false ∧ ready.inputs = .word (.req 0x110000000000002A#64) :: rest
      ∧ decode (.req 0x110000000000002A#64) = .ok (.print 42#32)
      ∧ exec (.print 42#32) { ready with inputs := rest, busy := true } = .next t :=
  ⟨_, _, rfl, rfl, by decide +kernel, rfl⟩

theorem witness_ReservedRequestIsTakenAndDoesNothing :
    ∃ s : State, s.busy = false ∧ s.inputs = [.word (.req 0xFF00000000000000#64)]
      ∧ Req.opc 0xFF00000000000000#64 ∉ listedOpcodes :=
  ⟨{ start with inputs := [.word (.req 0xFF00000000000000#64)] }, rfl, rfl, by decide +kernel⟩

theorem witness_RequestWaitsWhileBusy :
    (∃ (s : State) (w : FetchWord) (rest : List Input), s.busy = true ∧ s.inputs = .word w :: rest)
      ∧ start.inputs = [] :=
  ⟨⟨{ ready with busy := true }, _, _, rfl, rfl⟩, rfl⟩

theorem witness_ResetStateIsTheTable : 2 ≤ (2 : Index).val ∧ 2 ≤ (17 : Index).val := by decide

theorem witness_ResetSequenceReachesResetState :
    ∃ (s : State) (presented : Option Req) (rest : List Input),
      s.busy = true ∧ s.inputs = .reset presented :: rest :=
  ⟨{ start with inputs := [.reset (some 0#64), .word (.req 0#64)], busy := true }, _, _, rfl, rfl⟩

theorem witness_EventCountsPerFrame :
    Event.blk [0x85#8, 0x20#8] ∈ initEvents refBlock ∧ refPins.transport = .pins := by decide +kernel

theorem witness_EveryOperationRunsToItsEnd :
    (∃ rest, ready.busy = false ∧ ready.inputs = .word (.req 0x110000000000002A#64) :: rest)
      ∧ (∃ s : State, s.inputs = [.word (.wire 0x8060#16)] ∧ (0x8060#16).extractLsb' 0 4 = 0#4) :=
  ⟨⟨_, rfl, rfl⟩, { start with inputs := [.word (.wire 0x8060#16)] }, rfl, by decide +kernel⟩

/-- Both words of `ready`, its first word alone with the second later, and no word at all. -/
theorem witness_RequestsDrainInOrder :
    ready.busy = false
      ∧ ready.inputs =
          [0x110000000000002A#64, 0x0600000000000000#64].map (fun w => Input.word (.req w)) ++ []
      ∧ ready.inputs = [0x110000000000002A#64].map (fun w => Input.word (.req w))
          ++ [.word (.req 0x0600000000000000#64)]
      ∧ ready.inputs = [].map (fun w => Input.word (.req w)) ++ ready.inputs :=
  ⟨rfl, rfl, rfl, rfl⟩

/-- Applying the same two words in the other order leaves another state (R202, R203): the order is part of
what RequestsDrainInOrder says. -/
theorem test_applyAll_order_matters :
    (∃ t, start.applyAll [0x0600000000000000#64, 0x0700000000000000#64] = .next t ∧ t.blt = false)
      ∧ ∃ t, start.applyAll [0x0700000000000000#64, 0x0600000000000000#64] = .next t ∧ t.blt = true :=
  ⟨⟨_, rfl, rfl⟩, _, rfl, rfl⟩

/-! Invariants of the step. -/

theorem witness_StepKeepsConfigurationAndGrowsTrace :
    ∃ t, step ready = .next t
      ∧ ∀ (presented : Option Req) (rest : List Input), ready.inputs ≠ .reset presented :: rest :=
  ⟨_, rfl, fun _ _ h => by cases h⟩

theorem ready_data_is_zero : ∀ i : Index, 2 ≤ i.val → ready.dbRead i = 0#8 := by decide +kernel

theorem witness_StepKeepsMemoryCanonical : ∃ t, MemoryCanonical ready ∧ step ready = .next t :=
  ⟨_, rfl, rfl⟩

theorem witness_StepKeepsUnnamedBitsClear : ∃ t, UnnamedBitsClear ready ∧ step ready = .next t :=
  ⟨_, fun i b hi _ => by simp [State.bit, ready_data_is_zero i hi], rfl⟩

theorem witness_StepKeepsPairsExclusive : ∃ t, PairsExclusive ready ∧ step ready = .next t :=
  ⟨_, by unfold PairsExclusive; decide +kernel, rfl⟩

theorem witness_StepKeepsAtMostOneDecimalPoint :
    ∃ t, AtMostOneDecimalPoint ready ∧ step ready = .next t :=
  ⟨_, by unfold AtMostOneDecimalPoint; decide +kernel, rfl⟩

theorem witness_StepKeepsLatchesFollowingTrace : ∃ t, LatchesFollowTrace ready ∧ step ready = .next t :=
  ⟨_, fun p => by cases p <;> decide +kernel, rfl⟩

theorem witness_StepRespectsStraps : ∃ t, StrapsRespected ready ∧ step ready = .next t :=
  ⟨_, ⟨fun h => absurd h (by decide +kernel), fun h => absurd h (by decide +kernel),
    fun _ => by decide +kernel, fun h => absurd h (by decide +kernel)⟩, rfl⟩

theorem ready_last_data_frame : lastDataFrame ready.out = none := by decide +kernel

theorem witness_StepKeepsLastDataFrameEqualToBuffer :
    ∃ t, LastDataFrameIsBuffer ready ∧ ready.cfg.transport = .block ∧ step ready = .next t :=
  ⟨_, fun _ => by rw [ready_last_data_frame]; exact ready_data_is_zero, by decide +kernel, rfl⟩

/-! The display buffer, the encoder and the segment map. -/

theorem witness_HeaderIsHardwired : (0 : Index).val < 2 ∧ (1 : Index).val < 2 := by decide

theorem witness_SegWriteChangesOneBit :
    (⟨2, 0x01#8⟩ : Locator).wf = true ∧ (⟨17, 0x80#8⟩ : Locator).wf = true := by decide +kernel

/-- The first and last code of the table, the codes beside it, and an unsupported code within it. -/
theorem witness_UnsupportedCharactersAreBlank :
    (0x20 ≤ (0x20#8).toNat ∧ (0x20#8).toNat ≤ 0x5F) ∧ (0x20 ≤ (0x5F#8).toNat ∧ (0x5F#8).toNat ≤ 0x5F)
      ∧ (0x1F#8).toNat < 0x20 ∧ 0x5F < (0x60#8).toNat ∧ supported (0x21#8).toNat = false := by
  decide +kernel

/-- The bounds themselves and the integers beside them. -/
theorem witness_ClampReturnsNearestBound :
    (refBlock.clampMin ≤ -999999999 ∧ -999999999 ≤ refBlock.clampMax)
      ∧ (refBlock.clampMin ≤ 999999999 ∧ 999999999 ≤ refBlock.clampMax)
      ∧ -1000000000 < refBlock.clampMin ∧ refBlock.clampMax < 1000000000 := by decide +kernel

/-- The longest strings that fit and the shortest that are cut, and the numbers next to 0. -/
theorem witness_FormattedIntegerReadsBackInDisplayableRange :
    (decimal 999999).length ≤ 6 ∧ (decimal (-99999)).length ≤ 6 ∧ 6 < (decimal 1000000).length
      ∧ 6 < (decimal (-100000)).length ∧ 0 < 1 ∧ readDigits (decimal 1) 0 = some 1
      ∧ decimal (-1) = 0x2D#8 :: decimal 1 ∧ readInteger (fmt6 (-99999)) = some (-99999)
      ∧ readInteger (fmt6 (-100000)) = some (-10000) := by decide +kernel

/-- A character with a glyph and an unsupported one. -/
theorem witness_PutCellShowsGlyphAndNothingElse :
    supported (0x21#8).toNat = false ∧ supported (0x41#8).toNat = true := by decide +kernel

theorem witness_MultiplierGivesDecimalPointPosition :
    (10#24).toNat = 10 ∧ (100#24).toNat = 100 ∧ (1000#24).toNat = 1000 ∧ (10000#24).toNat = 10000
      ∧ (100000#24).toNat = 100000 ∧ (100001#24).toNat ∉ [10, 100, 1000, 10000, 100000]
      ∧ (9#24).toNat ∉ [10, 100, 1000, 10000, 100000] ∧ (0 ≤ 5 ∧ 5 ≤ 5) := by decide +kernel

theorem witness_PrintShowsClampedInteger : (⟨4, 0x80#8⟩ : Locator) ∈ start.cfg.dploc.toList := by
  decide +kernel

theorem witness_DocumentFloatExample : 314 ≤ start.cfg.clampMax := by decide +kernel

theorem witness_UnlistedMultiplierPrintsInteger :
    (1#24).toNat ∉ [10, 100, 1000, 10000, 100000] ∧ (0#24).toNat ∉ [10, 100, 1000, 10000, 100000] := by
  decide +kernel

theorem witness_OutOfRangeIntegerPrintsTheBound :
    start.cfg.clampMax < (1000000000#32).toInt
      ∧ (BitVec.ofInt 32 (-1000000000)).toInt < start.cfg.clampMin := by decide +kernel

/-- The last icon of the table and the number after it. -/
theorem witness_IconSwitchesItsSegment :
    (3#8).toNat < start.cfg.icon.length ∧ start.cfg.icon.length ≤ (4#8).toNat := by decide +kernel

theorem witness_Icon2SwitchesItsPair :
    (0#8).toNat < start.cfg.pair.length ∧ start.cfg.pair.length ≤ (1#8).toNat := by decide +kernel

theorem witness_BattLightsSegmentsAboveThreshold : ((⟨16, 0x08#8⟩ : Locator), 75) ∈ start.cfg.bat := by
  decide +kernel

theorem witness_ClearZeroesDataRegion :
    2 ≤ (2 : Index).val ∧ (⟨14, 0x10#8⟩ : Locator).wf = true := by decide +kernel

theorem witness_GaugesAreMonotone :
    ∃ t u v x, (25#8).toNat ≤ (26#8).toNat
      ∧ exec (.batt 25#8) start = .next t ∧ exec (.batt 26#8) start = .next u
      ∧ exec (.signal 25#8) start = .next v ∧ exec (.signal 26#8) start = .next x :=
  ⟨_, _, _, _, by decide, rfl, rfl, rfl, rfl⟩

theorem witness_FamiliesDoNotDisturbEachOther :
    (∃ t, exec (.icon 2#8 true) start = .next t)
      ∧ (∃ t, exec (.prtxt 2#3 0x41#8 0x42#8 0#8 0#8 0#8 0#8) start = .next t)
      ∧ ∃ t, exec (.print 42#32) start = .next t :=
  ⟨⟨_, rfl⟩, ⟨_, rfl⟩, ⟨_, rfl⟩⟩

theorem witness_OperationsAreIdempotentOnBuffer :
    ∃ t u, exec (.icon 2#8 true) start = .next t ∧ exec (.icon 2#8 true) t = .next u :=
  ⟨_, _, rfl, rfl⟩

/-! The serializer, the transport and the latches. -/

theorem witness_WrFrameSendsWireBytes : 1 ≤ (1 : Fin 19).val ∧ 1 ≤ (18 : Fin 19).val := by decide

theorem witness_SampledBitsAreTheWireBytes :
    refPins.transport = .pins ∧ refBlock.transport = .block := by decide +kernel

theorem witness_EmitAppendsAndSetsLatch : Pin.clk ≠ Pin.cs := by decide

/-- A mutating operation within its table, one beyond it, and one that mutates nothing. -/
theorem witness_MutatingOperationsEndWithOneFlush :
    (∃ t, exec (.icon 3#8 true) start = .next t ∧ mutates (.icon 3#8 true) = true
        ∧ ¬ beyondTable start.cfg (.icon 3#8 true))
      ∧ (∃ t, exec (.icon 4#8 true) start = .next t ∧ beyondTable start.cfg (.icon 4#8 true))
      ∧ ∃ t, exec .flush start = .next t ∧ mutates .flush = false :=
  ⟨⟨_, rfl, rfl, by unfold beyondTable; decide +kernel⟩, ⟨_, rfl, by unfold beyondTable; decide +kernel⟩,
    ⟨_, rfl, rfl⟩⟩

theorem witness_BacklightSwitchDrivesItsPin :
    start.cfg.hasBl = true ∧ (State.resetOf refBarePins).cfg.hasBl = false := by decide +kernel

theorem witness_LatchesChangeOnlyByTheirOperations :
    ∃ t, exec (.print 42#32) start = .next t ∧ Instr.print 42#32 ≠ .dispon ∧ Instr.print 42#32 ≠ .dispoff
      ∧ Instr.print 42#32 ≠ .blon ∧ Instr.print 42#32 ≠ .bloff :=
  ⟨_, rfl, by decide, by decide, by decide, by decide⟩

end Sys2Proof.Tests
end

section
/-! PROOFS. What a step and an operation can do, said once, and the two statements that follow from it:
a step of a ready block is the decoded operation with BUSY around it (spec/00_scope.md R11,
spec/70_reset_and_hazards.md R258), and no step changes the configuration or, without reset, takes an
event back (spec/00_scope.md R6, spec/10_state.md R28, R36 (e)). -/

namespace Sys2Proof.Machine

/-! A word taken from the port. -/

theorem runWord_of_decode_ok {w : FetchWord} {i : Instr} (h : decode w = .ok i) (s : State) :
    runWord w s = exec i s := by
  simp [runWord, h]

theorem runWord_of_decode_error {w : FetchWord} {r : Reject} (h : decode w = .error r) (s : State) :
    runWord w s = rejected r s := by
  simp [runWord, h]

/-- A word that is carried out without a refusal is an operation, or a reserved request that does
nothing (R74). -/
theorem runWord_cases {w : FetchWord} {s t : State} (h : runWord w s = .next t) :
    (∃ i, decode w = .ok i ∧ exec i s = .next t)
      ∨ ∃ opc, decode w = .error (.reservedOpcode opc) ∧ t = s := by
  cases hw : decode w with
  | ok i => exact .inl ⟨i, rfl, by rwa [runWord_of_decode_ok hw] at h⟩
  | error r =>
    rw [runWord_of_decode_error hw] at h
    cases r with
    | reservedOpcode opc =>
      cases h
      exact .inr ⟨opc, rfl, rfl⟩
    | notACommandFrame v => cases h

/-! The step, by what is presented next. -/

theorem step_of_no_inputs {s : State} (h : s.inputs = []) : step s = .next s := by
  simp [step, State.serve, h]

theorem step_of_reset {s : State} {presented : Option Req} {rest : List Input}
    (h : s.inputs = .reset presented :: rest) : step s = .next { s with inputs := rest }.restart := by
  simp [step, State.serve, h]

theorem step_of_word_busy {s : State} {w : FetchWord} {rest : List Input} (hb : s.busy = true)
    (h : s.inputs = .word w :: rest) : step s = .next s := by
  simp [step, State.serve, h, hb]

theorem step_of_word_ready {s : State} {w : FetchWord} {rest : List Input} (hb : s.busy = false)
    (h : s.inputs = .word w :: rest) : step s = finish (runWord w (s.take rest)) := by
  simp [step, State.serve, h, hb]

/-- Only an operation that ended is followed by the release of BUSY. -/
theorem finish_eq_next {o : Host.Outcome State Fault Refusal} {t : State} (h : finish o = .next t) :
    ∃ u, o = .next u ∧ t = u.release := by
  cases o with
  | next u =>
    cases h
    exact ⟨u, rfl, rfl⟩
  | fault f => cases h
  | refused r => cases h

/-- Everything a step that answers a next state can have done: nothing (the block idles, or the request
waits), the reset sequence, or a word carried out to its end. -/
theorem step_cases {s t : State} (h : step s = .next t) :
    t = s
      ∨ (∃ presented rest, s.inputs = .reset presented :: rest ∧ t = { s with inputs := rest }.restart)
      ∨ ∃ w rest u, s.busy = false ∧ s.inputs = .word w :: rest ∧ runWord w (s.take rest) = .next u
          ∧ t = u.release := by
  match hin : s.inputs with
  | [] =>
    rw [step_of_no_inputs hin] at h
    cases h
    exact .inl rfl
  | .reset presented :: rest =>
    rw [step_of_reset hin] at h
    cases h
    exact .inr (.inl ⟨presented, rest, rfl, rfl⟩)
  | .word w :: rest =>
    cases hb : s.busy with
    | true =>
      rw [step_of_word_busy hb hin] at h
      cases h
      exact .inl rfl
    | false =>
      rw [step_of_word_ready hb hin] at h
      obtain ⟨u, hu, rfl⟩ := finish_eq_next h
      exact .inr (.inr ⟨w, rest, u, rfl, rfl, hu, rfl⟩)

/-- Settles O6: the step of a ready block takes the word, runs it, and releases BUSY. -/
theorem stepCarriesOutDecodedOperation : Obligations.StepCarriesOutDecodedOperation := by
  unfold Obligations.StepCarriesOutDecodedOperation
  intro s w rest i hb hin hw t ht
  have hrun : runWord w (s.take rest) = .next t := (runWord_of_decode_ok hw _).trans ht
  rw [step_of_word_ready hb hin, hrun]
  rfl

/-! What an operation can do. -/

/-- The four things an operation can do besides nothing: write the buffer and flush it, send one command
frame, send the display command and set `DISP`, or switch the backlight. -/
inductive OperationEffect (s : State) : State → Prop where
  | nothing : OperationEffect s s
  | flushed {u : State} (h : OnlyBuffer s u) : OperationEffect s u.flush
  | command (type : BitVec 4) (operand : Byte) : OperationEffect s (s.wrCmd type operand)
  | display (operand : Byte) (on : Bool) : OperationEffect s { s.sendCmd operand with disp := on }
  | backlight (on : Bool) (h : s.cfg.hasBl = true) :
      OperationEffect s { s.emit (.pin .bl on) with blt := on }

theorem State.switchIcon_effect (s : State) (id : Byte) (en : Bool) :
    OperationEffect s (s.switchIcon id en) := by
  unfold State.switchIcon
  split
  · exact .flushed (s.segWrite_onlyBuffer _ _)
  · exact .nothing

theorem State.switchPair_effect (s : State) (id : Byte) (en mode : Bool) :
    OperationEffect s (s.switchPair id en mode) := by
  unfold State.switchPair
  split
  · exact .flushed (s.pairWrite_onlyBuffer _ _ _ _)
  · exact .nothing

/-- BLON and BLOFF in one: without a backlight pin neither does anything (R202, R203). -/
theorem State.switchBacklight_effect (s : State) (on : Bool) :
    OperationEffect s (if s.cfg.hasBl then { s.emit (.pin .bl on) with blt := on } else s) := by
  split
  · exact .backlight on ‹_›
  · exact .nothing

/-- Every operation ends in a next state, and does one of the listed things. -/
theorem exec_completes (i : Instr) (s : State) : ∃ t, exec i s = .next t ∧ OperationEffect s t := by
  cases i with
  | wrcmd type operand => exact ⟨_, rfl, .command type operand⟩
  | flush => exact ⟨_, rfl, .flushed (.refl s)⟩
  | clear => exact ⟨_, rfl, .flushed s.clearData_onlyBuffer⟩
  | dispon => exact ⟨_, rfl, .display _ true⟩
  | dispoff => exact ⟨_, rfl, .display _ false⟩
  | blon => exact ⟨_, rfl, s.switchBacklight_effect true⟩
  | bloff => exact ⟨_, rfl, s.switchBacklight_effect false⟩
  | prtxt len c0 c1 c2 c3 c4 c5 => exact ⟨_, rfl, .flushed (s.putText_onlyBuffer _)⟩
  | print n => exact ⟨_, rfl, .flushed (s.showInteger_onlyBuffer _)⟩
  | prfix mult m => exact ⟨_, rfl, .flushed (s.showScaled_onlyBuffer _ _)⟩
  | prflt prec x => exact ⟨_, rfl, .flushed (s.showScaled_onlyBuffer _ _)⟩
  | icon id en => exact ⟨_, rfl, s.switchIcon_effect id en⟩
  | icon2 id en mode => exact ⟨_, rfl, s.switchPair_effect id en mode⟩
  | batt pct => exact ⟨_, rfl, .flushed (s.batteryWrite_onlyBuffer _)⟩
  | signal pct => exact ⟨_, rfl, .flushed (s.signalWrite_onlyBuffer _)⟩
  | cmdframe t o => exact ⟨_, rfl, .command t o⟩

theorem exec_effect {i : Instr} {s t : State} (h : exec i s = .next t) : OperationEffect s t := by
  obtain ⟨u, hu, heff⟩ := exec_completes i s
  rw [hu] at h
  cases h
  exact heff

/-! The configuration stays and the trace only grows. -/

/-- `t` has the configuration of `s`, and a trace that begins with that of `s` (R6, R28). -/
def TraceExtends (s t : State) : Prop := t.cfg = s.cfg ∧ s.out <+: t.out

theorem TraceExtends.refl (s : State) : TraceExtends s s := ⟨rfl, List.prefix_rfl⟩

theorem TraceExtends.trans {s t u : State} (h : TraceExtends s t) (k : TraceExtends t u) :
    TraceExtends s u :=
  ⟨k.1.trans h.1, h.2.trans k.2⟩

theorem OnlyBuffer.traceExtends {s t : State} (h : OnlyBuffer s t) : TraceExtends s t := by
  rw [h]
  exact ⟨rfl, List.prefix_rfl⟩

/-- A frame adds the events of its wire bytes to the trace (R165, R183). -/
theorem State.wrFrame_out (s : State) (V : BitVec 144) (n : Fin 19) :
    (s.wrFrame V n).out = s.out ++ frameEvents s.cfg (wireBytes V n.val) := by
  rw [← s.staged_reverse_stage V n]
  exact State.emitAll_out _ _

theorem State.wrFrame_traceExtends (s : State) (V : BitVec 144) (n : Fin 19) :
    TraceExtends s (s.wrFrame V n) := by
  obtain ⟨hcfg, -⟩ := s.wrFrame_frame V n
  exact ⟨hcfg, s.wrFrame_out V n ▸ List.prefix_append _ _⟩

theorem State.sendCmd_traceExtends (s : State) (operand : Byte) : TraceExtends s (s.sendCmd operand) :=
  s.wrFrame_traceExtends _ 2

theorem State.emit_traceExtends (s : State) (e : Event) : TraceExtends s (s.emit e) :=
  ⟨s.emit_cfg e, s.emit_out e ▸ List.prefix_append _ _⟩

theorem OperationEffect.traceExtends {s t : State} (h : OperationEffect s t) : TraceExtends s t := by
  cases h with
  | nothing => exact .refl s
  | flushed hu => exact hu.traceExtends.trans (State.wrFrame_traceExtends _ _ 18)
  | command type operand => exact s.wrFrame_traceExtends _ 2
  | display operand on => exact s.sendCmd_traceExtends operand
  | backlight on _ => exact s.emit_traceExtends (.pin .bl on)

theorem runWord_traceExtends {w : FetchWord} {s t : State} (h : runWord w s = .next t) :
    TraceExtends s t := by
  obtain ⟨i, -, hexec⟩ | ⟨opc, -, rfl⟩ := runWord_cases h
  · exact (exec_effect hexec).traceExtends
  · exact .refl t

/-- Command frames sent one after another extend the trace. -/
theorem State.foldl_sendCmd_traceExtends (operands : List Byte) (s : State) :
    TraceExtends s (operands.foldl State.sendCmd s) := by
  induction operands generalizing s with
  | nil => exact .refl s
  | cons o rest ih => exact (s.sendCmd_traceExtends o).trans (ih (s.sendCmd o))

/-- Reset keeps the configuration that was sampled (R242, log entry 12). -/
theorem State.restart_cfg (s : State) : s.restart.cfg = s.cfg :=
  (State.foldl_sendCmd_traceExtends _ s.resetStart).1

/-- Settles O14, by what a step can have done: only reset starts the trace again. -/
theorem stepKeepsConfigurationAndGrowsTrace : Obligations.StepKeepsConfigurationAndGrowsTrace := by
  unfold Obligations.StepKeepsConfigurationAndGrowsTrace
  intro s t h
  obtain rfl | ⟨presented, rest, hin, rfl⟩ | ⟨w, rest, u, -, -, hrun, rfl⟩ := step_cases h
  · exact ⟨rfl, fun _ => List.prefix_rfl⟩
  · exact ⟨State.restart_cfg _, fun hno => absurd hin (hno presented rest)⟩
  · obtain ⟨hcfg, hout⟩ := runWord_traceExtends hrun
    exact ⟨hcfg, fun _ => hout⟩

end Sys2Proof.Machine
end

section
/-! PROOFS. The bits that a configuration names, family by family (spec/00_scope.md R8, R22), and what a
write to the display buffer can change (spec/20_memory.md R51, spec/10_state.md R37). -/

namespace Sys2Proof

/-! The families of named bits. -/

/-- The six families of segments whose bits R8 (c) keeps apart. -/
inductive Family where
  | cells
  | points
  | icons
  | pairs
  | battery
  | bars

/-- The bits of a family. -/
def Family.bits (c : Config) : Family → List BitPos
  | .cells => c.cellBits
  | .points => c.dpBits
  | .icons => c.iconBits
  | .pairs => c.pairBits
  | .battery => c.batBits
  | .bars => c.sigBits

/-- The families in the order in which `namedBits` lists them. -/
def Family.all : List Family := [.cells, .points, .icons, .pairs, .battery, .bars]

theorem Family.mem_all (f : Family) : f ∈ Family.all := by cases f <;> simp [Family.all]

theorem Config.namedBits_eq_flatMap (c : Config) : c.namedBits = Family.all.flatMap (Family.bits c) := by
  simp [Config.namedBits, Family.all, Family.bits]

theorem Config.mem_namedBits {c : Config} {p : BitPos} :
    p ∈ c.namedBits ↔ ∃ f : Family, p ∈ f.bits c := by
  simp [Config.namedBits_eq_flatMap, Family.mem_all]

/-! What well-formedness says (R8). -/

theorem Config.wf_iff (c : Config) : c.wf = true ↔
    c.locatorsWf = true ∧ c.cellsWf = true ∧ c.disjointWf = true ∧ c.clampWf = true
      ∧ c.thresholdsWf = true ∧ c.glyphsWf = true := by
  simp [Config.wf, and_assoc]

theorem Locator.wf_iff (l : Locator) : l.wf = true ↔ 2 ≤ l.off.val ∧ oneBit l.mask = true := by
  simp [Locator.wf]

theorem mem_maskBits {m : Byte} {b : Nat} : b ∈ maskBits m ↔ m.getLsbD b = true := by
  simp only [maskBits, List.mem_filter, List.mem_range, and_iff_right_iff_imp]
  exact BitVec.lt_of_getLsbD

theorem Locator.mem_bits {l : Locator} {i : Index} {b : Nat} :
    (i, b) ∈ l.bits ↔ i = l.off ∧ l.mask.getLsbD b = true := by
  simp only [Locator.bits, List.mem_map, mem_maskBits, Prod.mk.injEq]
  constructor
  · rintro ⟨b', hb, rfl, rfl⟩
    exact ⟨rfl, hb⟩
  · rintro ⟨rfl, hb⟩
    exact ⟨b, hb, rfl, rfl⟩

/-- A well-formed locator names a bit (R8 (a)). -/
theorem Locator.bits_ne_nil {l : Locator} (h : l.wf = true) : l.bits ≠ [] := by
  obtain ⟨-, hone⟩ := l.wf_iff.mp h
  intro hnil
  rw [Locator.bits, List.map_eq_nil_iff] at hnil
  simp [oneBit, hnil] at hone

theorem WFConfig.namedBits_nodup (c : WFConfig) : c.namedBits.Nodup := by
  obtain ⟨-, -, hdisjoint, -⟩ := c.toConfig.wf_iff.mp c.wf
  simpa [Config.disjointWf] using hdisjoint

theorem WFConfig.locator_wf_of_mem_points (c : WFConfig) {l : Locator} (h : l ∈ c.dploc.toList) :
    l.wf = true := by
  obtain ⟨hloc, -⟩ := c.toConfig.wf_iff.mp c.wf
  simp only [Config.locatorsWf, Bool.and_eq_true, List.all_eq_true] at hloc
  obtain ⟨⟨⟨⟨hpoints, -⟩, -⟩, -⟩, -⟩ := hloc
  exact hpoints l h

theorem WFConfig.locators_wf_of_mem_pair (c : WFConfig) {p : Locator × Locator} (h : p ∈ c.pair) :
    p.1.wf = true ∧ p.2.wf = true := by
  obtain ⟨hloc, -⟩ := c.toConfig.wf_iff.mp c.wf
  simp only [Config.locatorsWf, Bool.and_eq_true, List.all_eq_true] at hloc
  obtain ⟨⟨⟨⟨-, -⟩, hpairs⟩, -⟩, -⟩ := hloc
  exact hpairs p h

/-! Disjointness (R8 (c)). -/

/-- When a list built piece by piece lists nothing twice, the pieces of two different elements share
nothing. -/
theorem disjoint_of_flatMap_nodup {α β : Type} {f : α → List β} {l : List α} (h : (l.flatMap f).Nodup)
    {a b : α} (ha : a ∈ l) (hb : b ∈ l) (hab : a ≠ b) : (f a).Disjoint (f b) := by
  obtain ⟨-, hpair⟩ := List.nodup_flatMap.mp h
  have hsymm : Std.Symm (Function.onFun List.Disjoint f) := ⟨fun _ _ hd => hd.symm⟩
  exact hpair.forall ha hb hab

theorem WFConfig.families_disjoint (c : WFConfig) {f g : Family} (h : f ≠ g) :
    (f.bits c.toConfig).Disjoint (g.bits c.toConfig) := by
  have hnodup := c.namedBits_nodup
  rw [Config.namedBits_eq_flatMap] at hnodup
  exact disjoint_of_flatMap_nodup hnodup f.mem_all g.mem_all h

theorem WFConfig.family_nodup (c : WFConfig) (f : Family) : (f.bits c.toConfig).Nodup := by
  have hnodup := c.namedBits_nodup
  rw [Config.namedBits_eq_flatMap] at hnodup
  exact (List.nodup_flatMap.mp hnodup).1 f f.mem_all

theorem WFConfig.points_disjoint (c : WFConfig) {l m : Locator} (hl : l ∈ c.dploc.toList)
    (hm : m ∈ c.dploc.toList) (h : l ≠ m) : l.bits.Disjoint m.bits :=
  disjoint_of_flatMap_nodup (c.family_nodup .points) hl hm h

theorem WFConfig.pairs_disjoint (c : WFConfig) {p q : Locator × Locator} (hp : p ∈ c.pair)
    (hq : q ∈ c.pair) (h : p ≠ q) : (p.1.bits ++ p.2.bits).Disjoint (q.1.bits ++ q.2.bits) :=
  disjoint_of_flatMap_nodup (c.family_nodup .pairs) hp hq h

/-- No decimal point is listed twice. -/
theorem WFConfig.points_nodup (c : WFConfig) : c.dploc.toList.Nodup := by
  obtain ⟨-, hpair⟩ := List.nodup_flatMap.mp (c.family_nodup .points)
  refine hpair.imp_of_mem fun {l m} hl _ hd hlm => ?_
  subst hlm
  exact Locator.bits_ne_nil (c.locator_wf_of_mem_points hl)
    (List.eq_nil_iff_forall_not_mem.mpr fun p hp => hd hp hp)

/-! The bits of a cell (R80). -/

/-- A group of three bits, moved up to `k`, has bits at `k` to `k + 2` only (R80, R104). -/
theorem group_bits {g : BitVec 3} {k b : Nat} (h : (g.setWidth 8 <<< k).getLsbD b = true) :
    b = k ∨ b = k + 1 ∨ b = k + 2 := by
  simp only [BitVec.getLsbD_shiftLeft, BitVec.getLsbD_setWidth, Bool.and_eq_true, decide_eq_true_eq,
    Bool.not_eq_true', decide_eq_false_iff_not] at h
  obtain ⟨⟨-, hk⟩, -, hg⟩ := h
  have := BitVec.lt_of_getLsbD hg
  omega

/-- The bits that `put_cell` may touch in the byte of group H. -/
theorem CellDesc.groupH_mem_bits (d : CellDesc) (g : BitVec 3) (b : Nat)
    (h : (g.setWidth 8 <<< d.shH).getLsbD b = true) : (d.oH, b) ∈ d.bits := by
  obtain rfl | rfl | rfl := group_bits h <;> simp [CellDesc.bits]

/-- The bits that `put_cell` may touch in the byte of group L. -/
theorem CellDesc.groupL_mem_bits (d : CellDesc) (g : BitVec 3) (b : Nat)
    (h : (g.setWidth 8).getLsbD b = true) : (d.oL, b) ∈ d.bits := by
  obtain rfl | rfl | rfl := group_bits (k := 0) (by simpa using h) <;> simp [CellDesc.bits]

/-- The bits that `put_cell` may touch in the byte of the single segment. -/
theorem CellDesc.single_mem_bits (d : CellDesc) (b : Nat) (h : d.mS.getLsbD b = true) :
    (d.oS, b) ∈ d.bits := by
  simp [CellDesc.bits, mem_maskBits, h]

theorem Config.cell_bits_subset (c : Config) (k : Fin 6) : c.cell[k].bits ⊆ c.cellBits :=
  fun _ hp => List.mem_flatMap.mpr ⟨c.cell[k], by simp, hp⟩

end Sys2Proof

namespace Sys2Proof.Machine

/-! Bits that a write leaves alone. -/

theorem SameBitsBut.refl (bits : List BitPos) (s : State) : SameBitsBut bits s s := fun _ _ _ => rfl

theorem SameBitsBut.trans {bits : List BitPos} {s t u : State} (h : SameBitsBut bits s t)
    (k : SameBitsBut bits t u) : SameBitsBut bits s u :=
  fun i b hb => (k i b hb).trans (h i b hb)

theorem SameBitsBut.mono {bits bits' : List BitPos} {s t : State} (h : SameBitsBut bits s t)
    (hsub : bits ⊆ bits') : SameBitsBut bits' s t :=
  fun i b hb => h i b fun hmem => hb (hsub hmem)

theorem SameBitsBut.foldl {α : Type} {f : State → α → State} {bits : List BitPos} (l : List α)
    (s : State) (hcfg : ∀ s a, (f s a).cfg = s.cfg)
    (hf : ∀ t, ∀ a ∈ l, t.cfg = s.cfg → SameBitsBut bits t (f t a)) :
    SameBitsBut bits s (l.foldl f s) := by
  induction l generalizing s with
  | nil => exact .refl bits s
  | cons a rest ih =>
    refine (hf s a (by simp) rfl).trans (ih (f s a) fun t x hx ht => ?_)
    exact hf t x (by simp [hx]) (ht.trans (hcfg s a))

theorem State.setBits_sameBitsBut (s : State) (off : Index) (m : Byte) {bits : List BitPos}
    (h : ∀ b, m.getLsbD b = true → (off, b) ∈ bits) : SameBitsBut bits s (s.setBits off m) := by
  intro i b hnot
  have hkeep : ¬(i = off ∧ m.getLsbD b = true) := by
    rintro ⟨rfl, hb⟩
    exact hnot (h b hb)
  rw [State.bit_setBits]
  by_cases hi : i = off <;> simp_all

theorem State.clearBits_sameBitsBut (s : State) (off : Index) (m : Byte) {bits : List BitPos}
    (h : ∀ b, m.getLsbD b = true → (off, b) ∈ bits) : SameBitsBut bits s (s.clearBits off m) := by
  intro i b hnot
  have hkeep : ¬(i = off ∧ m.getLsbD b = true) := by
    rintro ⟨rfl, hb⟩
    exact hnot (h b hb)
  rw [State.bit_clearBits]
  by_cases hi : i = off <;> simp_all

theorem State.segWrite_sameBitsBut (s : State) (loc : Locator) (v : Bool) :
    SameBitsBut loc.bits s (s.segWrite loc v) := by
  have hmem : ∀ b, loc.mask.getLsbD b = true → (loc.off, b) ∈ loc.bits :=
    fun b hb => Locator.mem_bits.mpr ⟨rfl, hb⟩
  cases v with
  | true => exact s.setBits_sameBitsBut _ _ hmem
  | false => exact s.clearBits_sameBitsBut _ _ hmem

/-! The configuration after a write. -/

@[simp] theorem State.segWrite_cfg (s : State) (loc : Locator) (v : Bool) :
    (s.segWrite loc v).cfg = s.cfg := (s.segWrite_onlyBuffer loc v).cfg_eq

@[simp] theorem State.putCell_cfg (s : State) (k : Fin 6) (ch : Byte) : (s.putCell k ch).cfg = s.cfg :=
  (s.putCell_onlyBuffer k ch).cfg_eq

@[simp] theorem State.putText_cfg (s : State) (t : Vector Byte 6) : (s.putText t).cfg = s.cfg :=
  (s.putText_onlyBuffer t).cfg_eq

@[simp] theorem State.showInteger_cfg (s : State) (v : Int) : (s.showInteger v).cfg = s.cfg :=
  (s.showInteger_onlyBuffer v).cfg_eq

@[simp] theorem State.showScaled_cfg (s : State) (v : Int) (p : Nat) : (s.showScaled v p).cfg = s.cfg :=
  (s.showScaled_onlyBuffer v p).cfg_eq

/-! The operations on the buffer, by the families they write. -/

theorem State.clearCell_sameBitsBut (s : State) (k : Fin 6) :
    SameBitsBut s.cfg.cell[k].bits s (s.clearCell k) :=
  ((s.clearBits_sameBitsBut _ _ (s.cfg.cell[k].groupH_mem_bits 7#3)).trans
    (State.clearBits_sameBitsBut _ _ _ (s.cfg.cell[k].groupL_mem_bits 7#3))).trans
    (State.clearBits_sameBitsBut _ _ _ s.cfg.cell[k].single_mem_bits)

theorem State.putCell_sameBitsBut (s : State) (k : Fin 6) (ch : Byte) :
    SameBitsBut s.cfg.cell[k].bits s (s.putCell k ch) := by
  have hgroups := ((s.clearCell_sameBitsBut k).trans (State.setBits_sameBitsBut _ _ _
    (s.cfg.cell[k].groupH_mem_bits (split (glyphOf s.cfg ch)).1))).trans
      (State.setBits_sameBitsBut _ _ _ (s.cfg.cell[k].groupL_mem_bits (split (glyphOf s.cfg ch)).2.1))
  unfold State.putCell
  dsimp only
  split
  · exact hgroups.trans (State.setBits_sameBitsBut _ _ _ s.cfg.cell[k].single_mem_bits)
  · exact hgroups

theorem State.putText_sameBitsBut (s : State) (t : Vector Byte 6) :
    SameBitsBut s.cfg.cellBits s (s.putText t) := by
  refine SameBitsBut.foldl _ s (fun u k => u.putCell_cfg k _) fun u k _ hu => ?_
  rw [← hu]
  exact (u.putCell_sameBitsBut k _).mono (u.cfg.cell_bits_subset k)

/-- Writes to segments of a list touch the bits of the list only. -/
theorem State.foldl_segWrite_sameBitsBut {α : Type} (loc : α → Locator) (v : α → Bool) (l : List α)
    (s : State) :
    SameBitsBut (l.flatMap fun a => (loc a).bits) s (l.foldl (fun s a => s.segWrite (loc a) (v a)) s) :=
  SameBitsBut.foldl l s (fun u _ => u.segWrite_cfg _ _) fun u a ha _ =>
    (u.segWrite_sameBitsBut _ _).mono fun _ hp => List.mem_flatMap.mpr ⟨a, ha, hp⟩

theorem State.clearDps_sameBitsBut (s : State) : SameBitsBut s.cfg.dpBits s s.clearDps :=
  State.foldl_segWrite_sameBitsBut id (fun _ => false) s.cfg.dploc.toList s

theorem State.batteryWrite_sameBitsBut (s : State) (p : Nat) :
    SameBitsBut s.cfg.batBits s (s.batteryWrite p) :=
  State.foldl_segWrite_sameBitsBut Prod.fst (fun g => decide (p > g.2)) s.cfg.bat s

/-- `set_dp` writes one of the five decimal points, or nothing (R126). -/
theorem State.setDp_cases (s : State) (pos : Int) :
    s.setDp pos = s ∨ ∃ loc ∈ s.cfg.dploc.toList, s.setDp pos = s.segWrite loc true := by
  unfold State.setDp
  split
  · exact .inr ⟨_, by simp, rfl⟩
  · exact .inl rfl

theorem State.setDp_sameBitsBut (s : State) (pos : Int) : SameBitsBut s.cfg.dpBits s (s.setDp pos) := by
  obtain h | ⟨loc, hloc, h⟩ := s.setDp_cases pos
  · rw [h]
    exact .refl _ s
  · rw [h]
    exact (s.segWrite_sameBitsBut loc true).mono fun _ hp => List.mem_flatMap.mpr ⟨loc, hloc, hp⟩

theorem State.signalWrite_sameBitsBut (s : State) (bars : Nat) :
    SameBitsBut s.cfg.sigBits s (s.signalWrite bars) := by
  have hbar (t : State) (k : Fin 3) (v : Bool) :
      SameBitsBut s.cfg.sigBits t (t.segWrite s.cfg.sigloc[k] v) :=
    (t.segWrite_sameBitsBut _ v).mono fun _ hp => List.mem_flatMap.mpr ⟨s.cfg.sigloc[k], by simp, hp⟩
  exact ((hbar s 0 _).trans (hbar _ 1 _)).trans (hbar _ 2 _)

/-- The two writes of ICON2 touch the bits of its pair only. -/
theorem State.pairWrite_sameBitsBut (s : State) (locA locB : Locator) (en mode : Bool) :
    SameBitsBut (locA.bits ++ locB.bits) s (s.pairWrite locA locB en mode) := by
  have hA (t : State) (v : Bool) : SameBitsBut (locA.bits ++ locB.bits) t (t.segWrite locA v) :=
    (t.segWrite_sameBitsBut locA v).mono (List.subset_append_left _ _)
  have hB (t : State) (v : Bool) : SameBitsBut (locA.bits ++ locB.bits) t (t.segWrite locB v) :=
    (t.segWrite_sameBitsBut locB v).mono (List.subset_append_right _ _)
  unfold State.pairWrite
  split
  · exact (hA s true).trans (hB _ false)
  · exact (hB s true).trans (hA _ false)
  · exact (hA s false).trans (hB _ false)

theorem State.showInteger_sameBitsBut (s : State) (v : Int) :
    SameBitsBut (s.cfg.cellBits ++ s.cfg.dpBits) s (s.showInteger v) := by
  have hpoints := (s.putText (fmt6 v)).clearDps_sameBitsBut
  rw [State.putText_cfg] at hpoints
  exact ((s.putText_sameBitsBut _).mono (List.subset_append_left _ _)).trans
    (hpoints.mono (List.subset_append_right _ _))

theorem State.showScaled_sameBitsBut (s : State) (v : Int) (p : Nat) :
    SameBitsBut (s.cfg.cellBits ++ s.cfg.dpBits) s (s.showScaled v p) := by
  have hpoint := (s.showInteger v).setDp_sameBitsBut (dpPosition p)
  rw [State.showInteger_cfg] at hpoint
  exact (s.showInteger_sameBitsBut v).trans (hpoint.mono (List.subset_append_right _ _))

/-! Segments (R37). -/

/-- A segment is lit when a bit of its mask is 1. -/
theorem State.seg_eq_true_iff (s : State) (loc : Locator) :
    s.seg loc = true ↔ ∃ b, loc.mask.getLsbD b = true ∧ s.bit loc.off b = true := by
  rw [State.seg, decide_eq_true_eq, ne_eq, ← not_iff_not, not_not]
  constructor
  · rintro hzero ⟨b, hm, hb⟩
    have hand : (s.dbRead loc.off &&& loc.mask).getLsbD b = true := by
      rw [BitVec.getLsbD_and, hm, Bool.and_true]
      exact hb
    simp [hzero] at hand
  · intro hno
    apply BitVec.eq_of_getLsbD_eq
    intro b _
    rw [BitVec.getLsbD_and, BitVec.getLsbD_zero, Bool.eq_false_iff]
    intro hboth
    rw [Bool.and_eq_true] at hboth
    exact hno ⟨b, hboth.2, hboth.1⟩

/-- A segment none of whose bits is written shows what it showed. -/
theorem State.seg_of_sameBitsBut {s t : State} {bits : List BitPos} (h : SameBitsBut bits s t)
    {loc : Locator} (hd : loc.bits.Disjoint bits) : t.seg loc = s.seg loc := by
  have hbit (b : Nat) (hb : loc.mask.getLsbD b = true) : t.bit loc.off b = s.bit loc.off b :=
    h _ _ (hd (Locator.mem_bits.mpr ⟨rfl, hb⟩))
  rw [Bool.eq_iff_iff, State.seg_eq_true_iff, State.seg_eq_true_iff]
  exact exists_congr fun b => and_congr_right fun hb => by rw [hbit b hb]

theorem State.seg_of_sameBuffer {s t : State} (h : SameBuffer s t) (loc : Locator) :
    t.seg loc = s.seg loc := by
  rw [State.seg, State.seg, h]

/-- A segment is dark after it was written 0, if its byte is not the header's (R52). -/
theorem State.seg_segWrite_false_same (s : State) {loc : Locator} (h : 2 ≤ loc.off.val) :
    (s.segWrite loc false).seg loc = false := by
  rw [Bool.eq_false_iff, ne_eq, State.seg_eq_true_iff]
  rintro ⟨b, hm, hb⟩
  simp [State.segWrite, State.bit_clearBits, h, hm] at hb

/-- Writing a segment 0 lights no other. -/
theorem State.seg_segWrite_false_of_dark {s : State} (loc : Locator) {q : Locator} (h : s.seg q = false) :
    (s.segWrite loc false).seg q = false := by
  rw [Bool.eq_false_iff, ne_eq, State.seg_eq_true_iff] at *
  rintro ⟨b, hm, hb⟩
  refine h ⟨b, hm, ?_⟩
  simp only [State.segWrite, Bool.false_eq_true, if_false, State.bit_clearBits, Bool.and_eq_true] at hb
  exact hb.1

/-- A segment of the data region is dark when the data region is 0. -/
theorem State.seg_of_data_zero {s : State} (h : ∀ i : Index, 2 ≤ i.val → s.dbRead i = 0#8)
    {loc : Locator} (hoff : 2 ≤ loc.off.val) : s.seg loc = false := by
  simp [State.seg, h _ hoff]

/-- After its writes at most one member of a pair is lit: the last write is a 0 (R123). -/
theorem State.pairWrite_exclusive (s : State) {locA locB : Locator} (hA : 2 ≤ locA.off.val)
    (hB : 2 ≤ locB.off.val) (en mode : Bool) :
    ¬((s.pairWrite locA locB en mode).seg locA = true ∧ (s.pairWrite locA locB en mode).seg locB = true) := by
  rintro ⟨hlitA, hlitB⟩
  unfold State.pairWrite at hlitA hlitB
  split at hlitA
  · simp [State.seg_segWrite_false_same _ hB] at hlitB
  · simp [State.seg_segWrite_false_same _ hA] at hlitA
  · simp [State.seg_segWrite_false_same _ hB] at hlitB

/-- A segment is dark after a run of 0s that writes it, or if it was dark before. -/
theorem State.seg_foldl_segWrite_false {q : Locator} (hq : 2 ≤ q.off.val) (l : List Locator) (s : State)
    (h : q ∈ l ∨ s.seg q = false) : (l.foldl (fun s loc => s.segWrite loc false) s).seg q = false := by
  induction l generalizing s with
  | nil => simpa using h
  | cons loc rest ih =>
    refine ih _ ?_
    obtain hmem | hdark := h
    · obtain rfl | hrest := List.mem_cons.mp hmem
      · exact .inr (s.seg_segWrite_false_same hq)
      · exact .inl hrest
    · exact .inr (State.seg_segWrite_false_of_dark loc hdark)

end Sys2Proof.Machine
end

section
/-! PROOFS. What a step can do to the display buffer, said once, and the three invariants of the buffer:
unnamed bits stay 0, no pair shows both members, at most one decimal point is lit
(spec/10_state.md R36 (b) to (d)). -/

namespace Sys2Proof.Machine

/-! The writes of the operations (R23, R169). -/

/-- `u` is `s` after the buffer writes of one operation that writes the families listed, CLEAR apart. -/
inductive BufferWrite (s : State) : List Family → State → Prop where
  | none : BufferWrite s [] s
  | text (t : Vector Byte 6) : BufferWrite s [.cells] (s.putText t)
  | integer (v : Int) : BufferWrite s [.cells, .points] (s.showInteger v)
  | scaled (v : Int) (p : Nat) : BufferWrite s [.cells, .points] (s.showScaled v p)
  | icon {loc : Locator} (h : loc ∈ s.cfg.icon) (en : Bool) : BufferWrite s [.icons] (s.segWrite loc en)
  | pair {p : Locator × Locator} (h : p ∈ s.cfg.pair) (en mode : Bool) :
      BufferWrite s [.pairs] (s.pairWrite p.1 p.2 en mode)
  | battery (p : Nat) : BufferWrite s [.battery] (s.batteryWrite p)
  | bars (n : Nat) : BufferWrite s [.bars] (s.signalWrite n)

theorem BufferWrite.cfg_eq {s u : State} {fs : List Family} (h : BufferWrite s fs u) : u.cfg = s.cfg := by
  cases h with
  | none => rfl
  | text t => exact s.putText_cfg t
  | integer v => exact s.showInteger_cfg v
  | scaled v p => exact s.showScaled_cfg v p
  | icon _ en => exact s.segWrite_cfg _ en
  | pair _ en mode => exact (s.pairWrite_onlyBuffer _ _ en mode).cfg_eq
  | battery p => exact (s.batteryWrite_onlyBuffer p).cfg_eq
  | bars n => exact (s.signalWrite_onlyBuffer n).cfg_eq

/-- A write touches the bits of its families only. -/
theorem BufferWrite.sameBitsBut {s u : State} {fs : List Family} (h : BufferWrite s fs u) :
    SameBitsBut (fs.flatMap (Family.bits s.cfg.toConfig)) s u := by
  cases h with
  | none => exact .refl _ s
  | text t => simpa [Family.bits] using s.putText_sameBitsBut t
  | integer v => simpa [Family.bits] using s.showInteger_sameBitsBut v
  | scaled v p => simpa [Family.bits] using s.showScaled_sameBitsBut v p
  | icon hloc en =>
    refine (s.segWrite_sameBitsBut _ en).mono fun q hq => ?_
    exact List.mem_flatMap.mpr ⟨.icons, by simp, List.mem_flatMap.mpr ⟨_, hloc, hq⟩⟩
  | pair hp en mode =>
    refine (s.pairWrite_sameBitsBut _ _ en mode).mono fun q hq => ?_
    exact List.mem_flatMap.mpr ⟨.pairs, by simp, List.mem_flatMap.mpr ⟨_, hp, hq⟩⟩
  | battery p => simpa [Family.bits] using s.batteryWrite_sameBitsBut p
  | bars n => simpa [Family.bits] using s.signalWrite_sameBitsBut n

/-- A write leaves the segments of every other family as they were. -/
theorem BufferWrite.seg_eq {s u : State} {fs : List Family} (h : BufferWrite s fs u) {f : Family}
    (hf : f ∉ fs) {loc : Locator} (hloc : loc.bits ⊆ f.bits s.cfg.toConfig) : u.seg loc = s.seg loc := by
  refine State.seg_of_sameBitsBut h.sameBitsBut fun q hq hwritten => ?_
  obtain ⟨g, hg, hqg⟩ := List.mem_flatMap.mp hwritten
  have hfg : f ≠ g := fun heq => hf (heq ▸ hg)
  exact s.cfg.families_disjoint hfg (hloc hq) hqg

/-- Only ICON2 writes pairs. -/
theorem BufferWrite.of_pairs {s u : State} {fs : List Family} (h : BufferWrite s fs u)
    (hf : .pairs ∈ fs) :
    ∃ p ∈ s.cfg.pair, ∃ en mode, u = s.pairWrite p.1 p.2 en mode := by
  cases h with
  | pair hp en mode => exact ⟨_, hp, en, mode, rfl⟩
  | _ => simp at hf

/-- Only the three prints write decimal points, and each starts with the integer print (R140). -/
theorem BufferWrite.of_points {s u : State} {fs : List Family} (h : BufferWrite s fs u)
    (hf : .points ∈ fs) : ∃ v, u = s.showInteger v ∨ ∃ pos, u = (s.showInteger v).setDp pos := by
  cases h with
  | integer v => exact ⟨v, .inl rfl⟩
  | scaled v p => exact ⟨v, .inr ⟨_, rfl⟩⟩
  | _ => simp at hf

/-! The data region at 0. -/

/-- Every byte of the data region reads 0, as after reset and CLEAR (R35, R127). -/
def DataZero (s : State) : Prop := ∀ i : Index, 2 ≤ i.val → s.dbRead i = 0#8

theorem DataZero.of_mem_nil {s : State} (h : s.mem = []) : DataZero s := by
  intro i hi
  unfold State.dbRead
  rw [if_neg (by omega), if_neg (by omega), h]
  rfl

theorem DataZero.of_sameBuffer {s t : State} (h : DataZero s) (hsame : SameBuffer s t) : DataZero t :=
  fun i hi => (hsame i).trans (h i hi)

theorem DataZero.bit_eq {s : State} (h : DataZero s) {i : Index} (hi : 2 ≤ i.val) (b : Nat) :
    s.bit i b = false := by
  simp [State.bit, h i hi]

theorem State.dbRead_foldl_dbWrite_zero (l : List Index) (s : State) {i : Index} (hi : 2 ≤ i.val)
    (h : i ∈ l ∨ s.dbRead i = 0) : (l.foldl (fun s j => s.dbWrite j 0) s).dbRead i = 0 := by
  induction l generalizing s with
  | nil => simpa using h
  | cons j rest ih =>
    refine ih _ ?_
    rw [State.dbRead_dbWrite]
    by_cases hij : i = j
    · exact .inr (if_pos ⟨hij, hij ▸ hi⟩)
    · rw [if_neg fun hboth => hij hboth.1]
      exact h.imp_left fun hmem => (List.mem_cons.mp hmem).resolve_left hij

theorem mem_dataIndices : ∀ i : Index, 2 ≤ i.val → i ∈ dataIndices := by decide

theorem State.clearData_dataZero (s : State) : DataZero s.clearData := fun i hi =>
  State.dbRead_foldl_dbWrite_zero dataIndices s hi (.inl (mem_dataIndices i hi))

/-- The init sequence leaves the data region as it is (R245). -/
theorem State.foldl_sendCmd_mem (operands : List Byte) (s : State) :
    (operands.foldl State.sendCmd s).mem = s.mem := by
  induction operands generalizing s with
  | nil => rfl
  | cons o rest ih =>
    obtain ⟨-, hmem, -⟩ := s.wrFrame_frame ((cmdFrame s.cfg.cmdType o).setWidth 144) 2
    exact (ih _).trans hmem

theorem State.restart_dataZero (s : State) : DataZero s.restart :=
  DataZero.of_mem_nil (State.foldl_sendCmd_mem _ s.resetStart)

/-! What an operation and a step do to the buffer. -/

/-- From `s` to `t` the buffer took the writes of one operation, or its data region is 0. -/
inductive BufferEffect (s t : State) : Prop where
  | written {fs : List Family} {u : State} (hw : BufferWrite s fs u) (hsame : SameBuffer u t)
  | cleared (h : DataZero t)

theorem State.wrFrame_sameBuffer (s : State) (V : BitVec 144) (n : Fin 19) :
    SameBuffer s (s.wrFrame V n) := s.dbRead_wrFrame V n

theorem State.flush_sameBuffer (s : State) : SameBuffer s s.flush := s.wrFrame_sameBuffer _ 18

/-- The writes of an operation, and then its one flush (R169). -/
theorem BufferWrite.flushed {s u : State} {fs : List Family} (h : BufferWrite s fs u) :
    BufferEffect s u.flush := .written h u.flush_sameBuffer

theorem BufferEffect.of_sameBuffer {s t : State} (h : SameBuffer s t) : BufferEffect s t :=
  .written .none h

theorem State.switchIcon_bufferEffect (s : State) (id : Byte) (en : Bool) :
    BufferEffect s (s.switchIcon id en) := by
  unfold State.switchIcon
  split
  · exact (BufferWrite.icon (List.mem_of_getElem? ‹_›) en).flushed
  · exact .of_sameBuffer fun _ => rfl

theorem State.switchPair_bufferEffect (s : State) (id : Byte) (en mode : Bool) :
    BufferEffect s (s.switchPair id en mode) := by
  unfold State.switchPair
  split
  · exact (BufferWrite.pair (List.mem_of_getElem? ‹_›) en mode).flushed
  · exact .of_sameBuffer fun _ => rfl

theorem State.switchBacklight_bufferEffect (s : State) (on : Bool) :
    BufferEffect s (if s.cfg.hasBl then { s.emit (.pin .bl on) with blt := on } else s) := by
  split
  · exact .of_sameBuffer (State.dbRead_of_mem_eq (s.emit_cfg (.pin .bl on)) (s.emit_mem (.pin .bl on)))
  · exact .of_sameBuffer fun _ => rfl

/-- The buffer after every operation, one operation at a time. -/
theorem exec_completes_bufferEffect (i : Instr) (s : State) :
    ∃ t, exec i s = .next t ∧ BufferEffect s t := by
  cases i with
  | wrcmd type operand => exact ⟨_, rfl, .of_sameBuffer (s.wrFrame_sameBuffer _ 2)⟩
  | flush => exact ⟨_, rfl, .of_sameBuffer s.flush_sameBuffer⟩
  | clear => exact ⟨_, rfl, .cleared (s.clearData_dataZero.of_sameBuffer (State.flush_sameBuffer _))⟩
  | dispon => exact ⟨_, rfl, .of_sameBuffer (s.wrFrame_sameBuffer _ 2)⟩
  | dispoff => exact ⟨_, rfl, .of_sameBuffer (s.wrFrame_sameBuffer _ 2)⟩
  | blon => exact ⟨_, rfl, s.switchBacklight_bufferEffect true⟩
  | bloff => exact ⟨_, rfl, s.switchBacklight_bufferEffect false⟩
  | prtxt len c0 c1 c2 c3 c4 c5 => exact ⟨_, rfl, (BufferWrite.text _).flushed⟩
  | print n => exact ⟨_, rfl, (BufferWrite.integer _).flushed⟩
  | prfix mult m => exact ⟨_, rfl, (BufferWrite.scaled _ _).flushed⟩
  | prflt prec x => exact ⟨_, rfl, (BufferWrite.scaled _ _).flushed⟩
  | icon id en => exact ⟨_, rfl, s.switchIcon_bufferEffect id en⟩
  | icon2 id en mode => exact ⟨_, rfl, s.switchPair_bufferEffect id en mode⟩
  | batt pct => exact ⟨_, rfl, (BufferWrite.battery _).flushed⟩
  | signal pct => exact ⟨_, rfl, (BufferWrite.bars _).flushed⟩
  | cmdframe t o => exact ⟨_, rfl, .of_sameBuffer (s.wrFrame_sameBuffer _ 2)⟩

theorem exec_bufferEffect {i : Instr} {s t : State} (h : exec i s = .next t) : BufferEffect s t := by
  obtain ⟨u, hu, heff⟩ := exec_completes_bufferEffect i s
  rw [hu] at h
  cases h
  exact heff

/-- A property of the configuration and the buffer's bytes is kept by every step if it holds whenever the
data region is 0 and the writes of every operation keep it. -/
theorem step_keeps_buffer_invariant {I : State → Prop}
    (hsame : ∀ {s t}, t.cfg = s.cfg → SameBuffer s t → I s → I t)
    (hzero : ∀ {s}, DataZero s → I s)
    (hwrite : ∀ {s fs u}, BufferWrite s fs u → I s → I u)
    {s t : State} (hI : I s) (h : step s = .next t) : I t := by
  obtain rfl | ⟨presented, rest, -, rfl⟩ | ⟨w, rest, u, -, -, hrun, rfl⟩ := step_cases h
  · exact hI
  · exact hzero (State.restart_dataZero _)
  · have htaken : I (s.take rest) := hsame (s := s) rfl (fun _ => rfl) hI
    suffices hu : I u from hsame (s := u) rfl (fun _ => rfl) hu
    obtain ⟨i, -, hexec⟩ | ⟨opc, -, rfl⟩ := runWord_cases hrun
    · obtain ⟨hcfg, -⟩ := (exec_effect hexec).traceExtends
      obtain @⟨fs, v, hw, hvu⟩ | hcleared := exec_bufferEffect hexec
      · exact hsame (hcfg.trans hw.cfg_eq.symm) hvu (hwrite hw htaken)
      · exact hzero hcleared
    · exact htaken

/-! Bits the configuration does not name (R22, R36 (b)). -/

theorem UnnamedBitsClear.of_sameBuffer {s t : State} (hcfg : t.cfg = s.cfg) (hsame : SameBuffer s t)
    (h : UnnamedBitsClear s) : UnnamedBitsClear t := by
  intro i b hi hb
  rw [hcfg] at hb
  rw [State.bit, hsame i]
  exact h i b hi hb

theorem DataZero.unnamedBitsClear {s : State} (h : DataZero s) : UnnamedBitsClear s :=
  fun _ b hi _ => h.bit_eq hi b

theorem BufferWrite.unnamedBitsClear {s u : State} {fs : List Family} (hw : BufferWrite s fs u)
    (h : UnnamedBitsClear s) : UnnamedBitsClear u := by
  intro i b hi hb
  rw [hw.cfg_eq] at hb
  have hunwritten : (i, b) ∉ fs.flatMap (Family.bits s.cfg.toConfig) := by
    intro hmem
    obtain ⟨f, -, hf⟩ := List.mem_flatMap.mp hmem
    exact hb (Config.mem_namedBits.mpr ⟨f, hf⟩)
  rw [hw.sameBitsBut i b hunwritten]
  exact h i b hi hb

/-- Settles O16: every write of an operation stays within the bits that the configuration names. -/
theorem stepKeepsUnnamedBitsClear : Obligations.StepKeepsUnnamedBitsClear := by
  unfold Obligations.StepKeepsUnnamedBitsClear
  intro s t h hstep
  exact step_keeps_buffer_invariant UnnamedBitsClear.of_sameBuffer DataZero.unnamedBitsClear
    BufferWrite.unnamedBitsClear h hstep

/-! Pairs of icons (R36 (c), R129 (b)). -/

theorem PairsExclusive.of_seg_eq {s t : State} (hcfg : t.cfg = s.cfg)
    (hseg : ∀ p ∈ s.cfg.pair, t.seg p.1 = s.seg p.1 ∧ t.seg p.2 = s.seg p.2) (h : PairsExclusive s) :
    PairsExclusive t := by
  intro p hp
  rw [hcfg] at hp
  obtain ⟨hA, hB⟩ := hseg p hp
  rw [hA, hB]
  exact h p hp

theorem PairsExclusive.of_sameBuffer {s t : State} (hcfg : t.cfg = s.cfg) (hsame : SameBuffer s t)
    (h : PairsExclusive s) : PairsExclusive t :=
  h.of_seg_eq hcfg fun p _ => ⟨State.seg_of_sameBuffer hsame p.1, State.seg_of_sameBuffer hsame p.2⟩

theorem DataZero.pairsExclusive {s : State} (h : DataZero s) : PairsExclusive s := by
  rintro p hp ⟨hlit, -⟩
  obtain ⟨hoff, -⟩ := p.1.wf_iff.mp (s.cfg.locators_wf_of_mem_pair hp).1
  rw [State.seg_of_data_zero h hoff] at hlit
  cases hlit

/-- The write of ICON2 keeps every pair exclusive: its own because the last bit written is a 0, every
other because the pairs share no bit. -/
theorem PairsExclusive.pairWrite {s : State} (h : PairsExclusive s) {p : Locator × Locator}
    (hp : p ∈ s.cfg.pair) (en mode : Bool) : PairsExclusive (s.pairWrite p.1 p.2 en mode) := by
  intro q hq
  rw [(s.pairWrite_onlyBuffer p.1 p.2 en mode).cfg_eq] at hq
  by_cases hqp : q = p
  · subst hqp
    obtain ⟨hwfA, hwfB⟩ := s.cfg.locators_wf_of_mem_pair hq
    exact s.pairWrite_exclusive (q.1.wf_iff.mp hwfA).1 (q.2.wf_iff.mp hwfB).1 en mode
  · have hdisjoint := s.cfg.pairs_disjoint hq hp hqp
    obtain ⟨hA, hB⟩ := List.disjoint_append_left.mp hdisjoint
    have hwritten := s.pairWrite_sameBitsBut p.1 p.2 en mode
    rw [State.seg_of_sameBitsBut hwritten hA, State.seg_of_sameBitsBut hwritten hB]
    exact h q hq

theorem Config.pair_bits_subset {c : Config} {p : Locator × Locator} (h : p ∈ c.pair) :
    p.1.bits ⊆ Family.bits c .pairs ∧ p.2.bits ⊆ Family.bits c .pairs :=
  ⟨fun _ hb => List.mem_flatMap.mpr ⟨p, h, List.mem_append_left _ hb⟩,
    fun _ hb => List.mem_flatMap.mpr ⟨p, h, List.mem_append_right _ hb⟩⟩

theorem BufferWrite.pairsExclusive {s u : State} {fs : List Family} (hw : BufferWrite s fs u)
    (h : PairsExclusive s) : PairsExclusive u := by
  by_cases hf : Family.pairs ∈ fs
  · obtain ⟨p, hp, en, mode, rfl⟩ := hw.of_pairs hf
    exact h.pairWrite hp en mode
  · refine h.of_seg_eq hw.cfg_eq fun p hp => ?_
    obtain ⟨hA, hB⟩ := Config.pair_bits_subset hp
    exact ⟨hw.seg_eq hf hA, hw.seg_eq hf hB⟩

/-- Settles O17: ICON2 clears one member last, and no other operation writes a pair but to clear it. -/
theorem stepKeepsPairsExclusive : Obligations.StepKeepsPairsExclusive := by
  unfold Obligations.StepKeepsPairsExclusive
  intro s t h hstep
  exact step_keeps_buffer_invariant PairsExclusive.of_sameBuffer DataZero.pairsExclusive
    BufferWrite.pairsExclusive h hstep

/-! Decimal points (R36 (d), R126, R152). -/

theorem State.litDps_congr {s t : State} (hcfg : t.cfg = s.cfg)
    (hseg : ∀ loc ∈ s.cfg.dploc.toList, t.seg loc = s.seg loc) : t.litDps = s.litDps := by
  unfold State.litDps
  rw [hcfg]
  exact List.countP_congr fun loc hloc => by rw [hseg loc hloc]

/-- No decimal point is lit. -/
def PointsDark (s : State) : Prop := ∀ loc ∈ s.cfg.dploc.toList, s.seg loc = false

theorem PointsDark.litDps_eq_zero {s : State} (h : PointsDark s) : s.litDps = 0 :=
  List.countP_eq_zero.mpr fun loc hloc hlit => by simp [h loc hloc] at hlit

theorem PointsDark.atMostOne {s : State} (h : PointsDark s) : AtMostOneDecimalPoint s :=
  h.litDps_eq_zero.trans_le (Nat.zero_le 1)

theorem WFConfig.point_off (c : WFConfig) {loc : Locator} (h : loc ∈ c.dploc.toList) :
    2 ≤ loc.off.val := (loc.wf_iff.mp (c.locator_wf_of_mem_points h)).1

theorem DataZero.pointsDark {s : State} (h : DataZero s) : PointsDark s :=
  fun _ hloc => State.seg_of_data_zero h (WFConfig.point_off s.cfg hloc)

theorem State.clearDps_pointsDark (s : State) : PointsDark s.clearDps := by
  intro loc hloc
  rw [s.clearDps_onlyBuffer.cfg_eq] at hloc
  exact State.seg_foldl_segWrite_false (WFConfig.point_off s.cfg hloc) _ s (.inl hloc)

theorem State.showInteger_pointsDark (s : State) (v : Int) : PointsDark (s.showInteger v) :=
  (s.putText (fmt6 v)).clearDps_pointsDark

/-- From five dark points `set_dp` lights one at most. -/
theorem PointsDark.setDp_atMostOne {s : State} (h : PointsDark s) (pos : Int) :
    AtMostOneDecimalPoint (s.setDp pos) := by
  obtain hnone | ⟨loc, hloc, hlit⟩ := s.setDp_cases pos
  · rw [hnone]
    exact h.atMostOne
  · have honly : ∀ q ∈ s.cfg.dploc.toList, (s.segWrite loc true).seg q = true → (q == loc) = true := by
      intro q hq hseg
      by_contra hne
      have hdisjoint := s.cfg.points_disjoint hq hloc fun heq => hne (beq_iff_eq.mpr heq)
      rw [State.seg_of_sameBitsBut (s.segWrite_sameBitsBut loc true) hdisjoint, h q hq] at hseg
      cases hseg
    calc (s.setDp pos).litDps
      _ = s.cfg.dploc.toList.countP (s.segWrite loc true).seg := by
        rw [hlit, State.litDps, State.segWrite_cfg]
      _ ≤ s.cfg.dploc.toList.count loc := List.countP_mono_left honly
      _ ≤ 1 := List.nodup_iff_count_le_one.mp s.cfg.points_nodup loc

theorem AtMostOneDecimalPoint.of_sameBuffer {s t : State} (hcfg : t.cfg = s.cfg)
    (hsame : SameBuffer s t) (h : AtMostOneDecimalPoint s) : AtMostOneDecimalPoint t :=
  (State.litDps_congr hcfg fun loc _ => State.seg_of_sameBuffer hsame loc).trans_le h

theorem Config.point_bits_subset {c : Config} {loc : Locator} (h : loc ∈ c.dploc.toList) :
    loc.bits ⊆ Family.bits c .points :=
  fun _ hb => List.mem_flatMap.mpr ⟨loc, h, hb⟩

theorem BufferWrite.atMostOneDecimalPoint {s u : State} {fs : List Family} (hw : BufferWrite s fs u)
    (h : AtMostOneDecimalPoint s) : AtMostOneDecimalPoint u := by
  by_cases hf : Family.points ∈ fs
  · obtain ⟨v, rfl | ⟨pos, rfl⟩⟩ := hw.of_points hf
    · exact (s.showInteger_pointsDark v).atMostOne
    · exact (s.showInteger_pointsDark v).setDp_atMostOne pos
  · exact (State.litDps_congr hw.cfg_eq fun loc hloc =>
      hw.seg_eq hf (Config.point_bits_subset hloc)).trans_le h

/-- Settles O18: a print clears all five points before it sets one, and the other operations leave the
points as they are or clear them. -/
theorem stepKeepsAtMostOneDecimalPoint : Obligations.StepKeepsAtMostOneDecimalPoint := by
  unfold Obligations.StepKeepsAtMostOneDecimalPoint
  intro s t h hstep
  exact step_keeps_buffer_invariant AtMostOneDecimalPoint.of_sameBuffer
    (fun hzero => hzero.pointsDark.atMostOne) BufferWrite.atMostOneDecimalPoint h hstep

end Sys2Proof.Machine
end

section
/-! PROOFS. What a step can do to the trace and the output latches, said once, and the two invariants of
the trace: each latch holds the last level driven on its pin, and no output is driven that the straps say
is absent or unused (spec/10_state.md R27, R28). Then what leaves the two control latches alone
(spec/45_control.md R204). -/

namespace Sys2Proof.Machine

/-! Events emitted. -/

/-- From `s` to `t` exactly the events `es` left the block, and the latches followed them (R28). -/
structure Emits (es : List Event) (s t : State) : Prop where
  cfg : t.cfg = s.cfg
  out : t.out = s.out ++ es
  latch : ∀ p, t.latch p = (lastLevel p es).or (s.latch p)

theorem lastLevel_append (p : Pin) (xs ys : List Event) :
    lastLevel p (xs ++ ys) = (lastLevel p ys).or (lastLevel p xs) := by
  induction xs with
  | nil => simp [lastLevel]
  | cons e rest ih =>
    cases e with
    | pin q l => rw [List.cons_append, lastLevel, ih, Option.or_assoc, lastLevel]
    | blk bs => exact ih

theorem lastLevel_singleton_pin (p q : Pin) (l : Bool) :
    lastLevel p [.pin q l] = if q = p then some l else none := rfl

theorem Emits.silent {s t : State} (hcfg : t.cfg = s.cfg) (hout : t.out = s.out)
    (hlatch : ∀ p, t.latch p = s.latch p) : Emits [] s t :=
  ⟨hcfg, by rw [hout, List.append_nil], hlatch⟩

theorem Emits.refl (s : State) : Emits [] s s := .silent rfl rfl fun _ => rfl

theorem Emits.trans {es es' : List Event} {s t u : State} (h : Emits es s t) (k : Emits es' t u) :
    Emits (es ++ es') s u where
  cfg := k.cfg.trans h.cfg
  out := by rw [k.out, h.out, List.append_assoc]
  latch p := by rw [k.latch, h.latch, lastLevel_append, Option.or_assoc]

theorem OnlyBuffer.emits_nil {s t : State} (h : OnlyBuffer s t) : Emits [] s t := by
  rw [h]
  exact .silent rfl rfl fun p => by cases p <;> rfl

theorem State.emit_emits (s : State) (e : Event) : Emits [e] s (s.emit e) where
  cfg := s.emit_cfg e
  out := s.emit_out e
  latch := s.emitAll_latch [e]

theorem State.emitAll_emits (s : State) (es : List Event) : Emits es s (s.emitAll es) where
  cfg := (s.emitAll_frame es).1
  out := s.emitAll_out es
  latch := s.emitAll_latch es

/-- Sending a frame emits the events of its wire bytes (R165, R183). -/
theorem State.wrFrame_emits (s : State) (V : BitVec 144) (n : Fin 19) :
    Emits (frameEvents s.cfg (wireBytes V n.val)) s (s.wrFrame V n) := by
  have hstaged : Emits [] s (s.stage V n).reverse := .silent rfl rfl fun p => by cases p <;> rfl
  have hstreamed := (s.stage V n).reverse.emitAll_emits (frameEvents s.cfg (wireBytes V n.val))
  have hdiscarded (t : State) : Emits [] t t.discard := .silent rfl rfl fun p => by cases p <;> rfl
  have hframe := (hstaged.trans hstreamed).trans (hdiscarded _)
  rw [List.nil_append, List.append_nil] at hframe
  rw [State.wrFrame, s.staged_reverse_stage V n]
  exact hframe

/-! The outputs that the straps provide. -/

/-- The straps provide the output of an event (R27, R182, R184, R202). -/
def StrapAllows (c : Config) : Event → Prop
  | .pin .cs _ => c.hasCs = true
  | .pin .bl _ => c.hasBl = true
  | .pin .clk _ => c.transport = .pins
  | .pin .data _ => c.transport = .pins
  | .blk _ => c.transport = .block

/-- Every event of a trace is one of an output that the straps provide. -/
def AllAllowed (c : Config) (es : List Event) : Prop := ∀ e ∈ es, StrapAllows c e

theorem AllAllowed.nil (c : Config) : AllAllowed c [] := fun _ h => by cases h

theorem AllAllowed.append {c : Config} {es es' : List Event} (h : AllAllowed c es)
    (h' : AllAllowed c es') : AllAllowed c (es ++ es') :=
  fun e he => (List.mem_append.mp he).elim (h e) (h' e)

theorem AllAllowed.singleton {c : Config} {e : Event} (h : StrapAllows c e) : AllAllowed c [e] :=
  List.forall_mem_singleton.mpr h

theorem csEvent_allAllowed (c : WFConfig) (level : Bool) : AllAllowed c.toConfig (csEvent c level) := by
  unfold csEvent
  split
  · exact .singleton ‹_›
  · exact .nil _

/-- `pins_out` drives the clock and the data line only (R185). -/
theorem mem_pinsOut {bs : List Byte} {e : Event} (h : e ∈ pinsOut bs) :
    ∃ level, e = .pin .clk level ∨ e = .pin .data level := by
  obtain ⟨b, -, hb⟩ := List.mem_flatMap.mp h
  obtain ⟨v, -, hv⟩ := List.mem_flatMap.mp hb
  simp only [bitEvents, List.mem_cons, List.not_mem_nil, or_false] at hv
  obtain rfl | rfl | rfl := hv
  · exact ⟨_, .inl rfl⟩
  · exact ⟨_, .inr rfl⟩
  · exact ⟨_, .inl rfl⟩

theorem pinsOut_allAllowed {c : Config} (h : c.transport = .pins) (bs : List Byte) :
    AllAllowed c (pinsOut bs) := by
  intro e he
  obtain ⟨level, rfl | rfl⟩ := mem_pinsOut he <;> exact h

/-- A frame drives only what the straps provide (R182 to R184). -/
theorem frameEvents_allAllowed (c : WFConfig) (bs : List Byte) :
    AllAllowed c.toConfig (frameEvents c bs) := by
  refine AllAllowed.append (AllAllowed.append (csEvent_allAllowed c false) ?_) (csEvent_allAllowed c true)
  split
  · exact .singleton ‹_›
  · exact pinsOut_allAllowed ‹_› bs

theorem strapsRespected_iff (s : State) : StrapsRespected s ↔ AllAllowed s.cfg.toConfig s.out := by
  constructor
  · rintro ⟨hcs, hbl, hblock, hpins⟩ e he
    cases e with
    | pin p l =>
      cases p with
      | cs => exact Bool.of_not_eq_false fun h => hcs h l he
      | bl => exact Bool.of_not_eq_false fun h => hbl h l he
      | clk =>
        cases htr : s.cfg.transport with
        | pins => exact htr
        | block => exact absurd he (hblock htr l).1
      | data =>
        cases htr : s.cfg.transport with
        | pins => exact htr
        | block => exact absurd he (hblock htr l).2
    | blk bs =>
      cases htr : s.cfg.transport with
      | pins => exact absurd he (hpins htr bs)
      | block => exact htr
  · intro h
    refine ⟨fun hcs l he => ?_, fun hbl l he => ?_, fun htr l => ⟨fun he => ?_, fun he => ?_⟩,
      fun htr bs he => ?_⟩
    · exact Bool.false_ne_true (hcs.symm.trans (h _ he))
    · exact Bool.false_ne_true (hbl.symm.trans (h _ he))
    · exact Transport.noConfusion (htr.symm.trans (h _ he))
    · exact Transport.noConfusion (htr.symm.trans (h _ he))
    · exact Transport.noConfusion (htr.symm.trans (h _ he))

/-! What an operation and a step do to the trace. -/

/-- From `s` to `t` some events left the block, all of them of outputs that the straps provide. -/
def EmitsAllowed (s t : State) : Prop := ∃ es, AllAllowed s.cfg.toConfig es ∧ Emits es s t

theorem EmitsAllowed.of_silent {s t : State} (h : Emits [] s t) : EmitsAllowed s t := ⟨[], .nil _, h⟩

theorem EmitsAllowed.trans {s t u : State} (h : EmitsAllowed s t) (k : EmitsAllowed t u) :
    EmitsAllowed s u := by
  obtain ⟨es, hes, hst⟩ := h
  obtain ⟨es', hes', htu⟩ := k
  rw [hst.cfg] at hes'
  exact ⟨es ++ es', hes.append hes', hst.trans htu⟩

theorem State.wrFrame_emitsAllowed (s : State) (V : BitVec 144) (n : Fin 19) :
    EmitsAllowed s (s.wrFrame V n) := ⟨_, frameEvents_allAllowed s.cfg _, s.wrFrame_emits V n⟩

theorem State.foldl_sendCmd_emitsAllowed (operands : List Byte) (s : State) :
    EmitsAllowed s (operands.foldl State.sendCmd s) := by
  induction operands generalizing s with
  | nil => exact .of_silent (.refl s)
  | cons o rest ih => exact (s.wrFrame_emitsAllowed _ 2).trans (ih (s.sendCmd o))

theorem OperationEffect.emitsAllowed {s t : State} (h : OperationEffect s t) : EmitsAllowed s t := by
  cases h with
  | nothing => exact .of_silent (.refl s)
  | flushed hu => exact .trans (.of_silent hu.emits_nil) (State.wrFrame_emitsAllowed _ _ 18)
  | command type operand => exact s.wrFrame_emitsAllowed _ 2
  | display operand on =>
    exact .trans (s.wrFrame_emitsAllowed _ 2) (.of_silent (.silent rfl rfl fun p => by cases p <;> rfl))
  | backlight on hbl =>
    exact .trans ⟨[.pin .bl on], .singleton (e := .pin .bl on) hbl, s.emit_emits (.pin .bl on)⟩
      (.of_silent (.silent rfl rfl fun p => by cases p <;> rfl))

/-- Reset starts the trace again and emits the init sequence (R240, R243). -/
theorem State.restart_emitsAllowed (s : State) : EmitsAllowed s.resetStart s.restart :=
  .trans (State.foldl_sendCmd_emitsAllowed s.cfg.cmdInit.toList s.resetStart)
    (.of_silent (.silent rfl rfl fun p => by cases p <;> rfl))

/-- A property of the configuration, the trace and the latches is kept by every step if it holds at the
start of reset and events that the straps allow keep it. -/
theorem step_keeps_trace_invariant {I : State → Prop} (hreset : ∀ s : State, I s.resetStart)
    (hemits : ∀ {s t}, EmitsAllowed s t → I s → I t) {s t : State} (hI : I s)
    (h : step s = .next t) : I t := by
  obtain rfl | ⟨presented, rest, -, rfl⟩ | ⟨w, rest, u, -, -, hrun, rfl⟩ := step_cases h
  · exact hI
  · exact hemits (State.restart_emitsAllowed _) (hreset _)
  · have htaken : EmitsAllowed s (s.take rest) :=
      .of_silent (.silent rfl rfl fun p => by cases p <;> rfl)
    have hreleased : EmitsAllowed u u.release :=
      .of_silent (.silent rfl rfl fun p => by cases p <;> rfl)
    refine hemits hreleased ?_
    obtain ⟨i, -, hexec⟩ | ⟨opc, -, rfl⟩ := runWord_cases hrun
    · exact hemits (htaken.trans (exec_effect hexec).emitsAllowed) hI
    · exact hemits htaken hI

/-! The latches (R27, R28). -/

theorem LatchesFollowTrace.of_emits {es : List Event} {s t : State} (h : LatchesFollowTrace s)
    (k : Emits es s t) : LatchesFollowTrace t := by
  intro p
  rw [k.latch, k.out, lastLevel_append, h p]

theorem State.resetStart_latchesFollowTrace (s : State) : LatchesFollowTrace s.resetStart :=
  fun p => by cases p <;> rfl

/-- Settles O19: emitting events keeps the latches, and nothing else touches a latch or the trace. -/
theorem stepKeepsLatchesFollowingTrace : Obligations.StepKeepsLatchesFollowingTrace := by
  unfold Obligations.StepKeepsLatchesFollowingTrace
  intro s t h hstep
  exact step_keeps_trace_invariant State.resetStart_latchesFollowTrace
    (fun ⟨_, _, hes⟩ hs => hs.of_emits hes) h hstep

/-! The straps (R27, R182, R184, R202). -/

theorem StrapsRespected.of_emitsAllowed {s t : State} (k : EmitsAllowed s t) (h : StrapsRespected s) :
    StrapsRespected t := by
  obtain ⟨es, hallowed, hes⟩ := k
  rw [strapsRespected_iff] at h ⊢
  rw [hes.cfg, hes.out]
  exact h.append hallowed

theorem State.resetStart_strapsRespected (s : State) : StrapsRespected s.resetStart :=
  (strapsRespected_iff _).mpr (.nil _)

/-- Settles O20: every event of an operation is a frame's, or the backlight's where there is a pin. -/
theorem stepRespectsStraps : Obligations.StepRespectsStraps := by
  unfold Obligations.StepRespectsStraps
  intro s t h hstep
  exact step_keeps_trace_invariant State.resetStart_strapsRespected StrapsRespected.of_emitsAllowed h hstep

/-- Settles O52, by what an event does to the trace and to each latch. -/
theorem emitAppendsAndSetsLatch : Obligations.EmitAppendsAndSetsLatch := by
  unfold Obligations.EmitAppendsAndSetsLatch
  intro s
  refine ⟨fun p l => ⟨s.emit_out _, ?_, fun q hq => ?_⟩, fun bs => ⟨s.emit_out _, fun q => ?_⟩⟩
  · rw [State.emit_latch]
    exact if_pos rfl
  · rw [State.emit_latch]
    exact if_neg hq.symm
  · rw [State.emit_latch]

/-! The control latches (R24, R25, R204). -/

/-- The backlight latch and its pin are as they were, and no event drove the pin. -/
def BacklightKept (s t : State) : Prop :=
  t.blt = s.blt ∧ t.pBl = s.pBl ∧ ∃ es, t.out = s.out ++ es ∧ ∀ l, Event.pin .bl l ∉ es

/-- Neither control latch changed, and no event drove the backlight pin. -/
def ControlKept (s t : State) : Prop := t.disp = s.disp ∧ BacklightKept s t

theorem ControlKept.refl (s : State) : ControlKept s s :=
  ⟨rfl, rfl, rfl, [], (List.append_nil _).symm, fun _ h => by cases h⟩

theorem csEvent_no_backlight (c : WFConfig) (level l : Bool) : Event.pin .bl l ∉ csEvent c level := by
  unfold csEvent
  split <;> simp

/-- No frame drives the backlight pin (R183). -/
theorem frameEvents_no_backlight (c : WFConfig) (bs : List Byte) (l : Bool) :
    Event.pin .bl l ∉ frameEvents c bs := by
  unfold frameEvents
  rw [List.mem_append, List.mem_append]
  rintro ((hcs | hbytes) | hcs)
  · exact csEvent_no_backlight c false l hcs
  · split at hbytes
    · simp [blockOut] at hbytes
    · obtain ⟨level, h | h⟩ := mem_pinsOut hbytes <;> simp at h
  · exact csEvent_no_backlight c true l hcs

theorem lastLevel_eq_none {p : Pin} {es : List Event} (h : ∀ l, Event.pin p l ∉ es) :
    lastLevel p es = none := by
  induction es with
  | nil => rfl
  | cons e rest ih =>
    have hrest := ih fun l hl => h l (List.mem_cons_of_mem _ hl)
    cases e with
    | pin q l =>
      have hqp : q ≠ p := by
        rintro rfl
        exact h l List.mem_cons_self
      simp [lastLevel, hrest, hqp]
    | blk bs => exact hrest

theorem State.wrFrame_controlKept (s : State) (V : BitVec 144) (n : Fin 19) :
    ControlKept s (s.wrFrame V n) := by
  obtain ⟨-, -, hdisp, hblt, -⟩ := s.wrFrame_frame V n
  have hemits := s.wrFrame_emits V n
  have hno := frameEvents_no_backlight s.cfg (wireBytes V n.val)
  have hpin : (s.wrFrame V n).latch .bl = s.latch .bl := by
    rw [hemits.latch, lastLevel_eq_none hno, Option.none_or]
  exact ⟨hdisp, hblt, hpin, _, hemits.out, hno⟩

theorem OnlyBuffer.flush_controlKept {s u : State} (h : OnlyBuffer s u) : ControlKept s u.flush := by
  have hflush : ControlKept u u.flush := u.wrFrame_controlKept _ 18
  rw [h] at hflush ⊢
  exact hflush

theorem State.switchIcon_controlKept (s : State) (id : Byte) (en : Bool) :
    ControlKept s (s.switchIcon id en) := by
  unfold State.switchIcon
  split
  · exact (s.segWrite_onlyBuffer _ _).flush_controlKept
  · exact .refl s

theorem State.switchPair_controlKept (s : State) (id : Byte) (en mode : Bool) :
    ControlKept s (s.switchPair id en mode) := by
  unfold State.switchPair
  split
  · exact (s.pairWrite_onlyBuffer _ _ _ _).flush_controlKept
  · exact .refl s

theorem State.switchBacklight_disp (s : State) (on : Bool) :
    (if s.cfg.hasBl then { s.emit (.pin .bl on) with blt := on } else s).disp = s.disp := by
  split
  · exact s.emit_disp (.pin .bl on)
  · rfl

/-- What the operation `i` keeps of the two control latches. -/
def LatchesKeptBy (i : Instr) (s t : State) : Prop :=
  (i ≠ .dispon → i ≠ .dispoff → t.disp = s.disp) ∧ (i ≠ .blon → i ≠ .bloff → BacklightKept s t)

theorem ControlKept.latchesKeptBy {s t : State} (h : ControlKept s t) (i : Instr) :
    LatchesKeptBy i s t := ⟨fun _ _ => h.1, fun _ _ => h.2⟩

/-- What each operation keeps of the control latches, one operation at a time. -/
theorem exec_completes_latchesKept (i : Instr) (s : State) :
    ∃ t, exec i s = .next t ∧ LatchesKeptBy i s t := by
  cases i with
  | wrcmd type operand => exact ⟨_, rfl, (s.wrFrame_controlKept _ 2).latchesKeptBy _⟩
  | flush => exact ⟨_, rfl, (OnlyBuffer.refl s).flush_controlKept.latchesKeptBy _⟩
  | clear => exact ⟨_, rfl, s.clearData_onlyBuffer.flush_controlKept.latchesKeptBy _⟩
  | dispon => exact ⟨_, rfl, fun h => absurd rfl h, fun _ _ => (s.wrFrame_controlKept _ 2).2⟩
  | dispoff => exact ⟨_, rfl, fun _ h => absurd rfl h, fun _ _ => (s.wrFrame_controlKept _ 2).2⟩
  | blon => exact ⟨_, rfl, fun _ _ => s.switchBacklight_disp true, fun h => absurd rfl h⟩
  | bloff => exact ⟨_, rfl, fun _ _ => s.switchBacklight_disp false, fun _ h => absurd rfl h⟩
  | prtxt len c0 c1 c2 c3 c4 c5 =>
    exact ⟨_, rfl, (s.putText_onlyBuffer _).flush_controlKept.latchesKeptBy _⟩
  | print n => exact ⟨_, rfl, (s.showInteger_onlyBuffer _).flush_controlKept.latchesKeptBy _⟩
  | prfix mult m => exact ⟨_, rfl, (s.showScaled_onlyBuffer _ _).flush_controlKept.latchesKeptBy _⟩
  | prflt prec x => exact ⟨_, rfl, (s.showScaled_onlyBuffer _ _).flush_controlKept.latchesKeptBy _⟩
  | icon id en => exact ⟨_, rfl, (s.switchIcon_controlKept id en).latchesKeptBy _⟩
  | icon2 id en mode => exact ⟨_, rfl, (s.switchPair_controlKept id en mode).latchesKeptBy _⟩
  | batt pct => exact ⟨_, rfl, (s.batteryWrite_onlyBuffer _).flush_controlKept.latchesKeptBy _⟩
  | signal pct => exact ⟨_, rfl, (s.signalWrite_onlyBuffer _).flush_controlKept.latchesKeptBy _⟩
  | cmdframe t o => exact ⟨_, rfl, (s.wrFrame_controlKept _ 2).latchesKeptBy _⟩

/-- Settles O59: frames keep both latches, and only the four control operations do more than write the
buffer and send a frame. -/
theorem latchesChangeOnlyByTheirOperations : Obligations.LatchesChangeOnlyByTheirOperations := by
  unfold Obligations.LatchesChangeOnlyByTheirOperations
  intro i s t h
  obtain ⟨u, hu, hkept⟩ := exec_completes_latchesKept i s
  rw [hu] at h
  cases h
  exact hkept

end Sys2Proof.Machine
end

section
/-! PROOFS. The state after reset: the table of spec/10_state.md R35, and every invariant of the block
(R36; spec/20_memory.md R60; spec/70_reset_and_hazards.md R243, R245). -/

namespace Sys2Proof.Machine

/-! The levels that a frame leaves (R183, R185). -/

theorem lastLevel_cs_csEvent (c : WFConfig) (level : Bool) :
    lastLevel .cs (csEvent c level) = if c.hasCs then some level else none := by
  unfold csEvent
  split <;> rfl

theorem lastLevel_csEvent_of_ne (c : WFConfig) (level : Bool) {p : Pin} (h : p ≠ .cs) :
    lastLevel p (csEvent c level) = none := by
  unfold csEvent
  split
  · rw [lastLevel_singleton_pin, if_neg h.symm]
  · rfl

theorem lastLevel_cs_pinsOut (bs : List Byte) : lastLevel .cs (pinsOut bs) = none :=
  lastLevel_eq_none fun l hl => by obtain ⟨level, h | h⟩ := mem_pinsOut hl <;> cases h

theorem pinsOut_append (bs bs' : List Byte) : pinsOut (bs ++ bs') = pinsOut bs ++ pinsOut bs' :=
  List.flatMap_append

/-- Bytes streamed on the pins leave the clock high. -/
theorem lastLevel_clk_pinsOut (bs : List Byte) (b : Byte) :
    lastLevel .clk (pinsOut (bs ++ [b])) = some true := by
  have hlast : lastLevel .clk (pinsOut [b]) = some true := rfl
  rw [pinsOut_append, lastLevel_append, hlast, Option.some_or]

/-- Bytes streamed on the pins leave the data line at the last bit sent. -/
theorem lastLevel_data_pinsOut (bs : List Byte) (b : Byte) :
    lastLevel .data (pinsOut (bs ++ [b])) = some (b.getLsbD 0) := by
  have hlast : lastLevel .data (pinsOut [b]) = some (b.getLsbD 0) := rfl
  rw [pinsOut_append, lastLevel_append, hlast, Option.some_or]

theorem frameEvents_of_block {c : WFConfig} (h : c.transport = .block) (bs : List Byte) :
    frameEvents c bs = csEvent c false ++ [.blk bs] ++ csEvent c true := by
  simp [frameEvents, h, blockOut]

theorem frameEvents_of_pins {c : WFConfig} (h : c.transport = .pins) (bs : List Byte) :
    frameEvents c bs = csEvent c false ++ pinsOut bs ++ csEvent c true := by
  simp [frameEvents, h]

/-- A frame leaves chip select, where there is one, deasserted. -/
theorem lastLevel_cs_frameEvents (c : WFConfig) (bs : List Byte) :
    lastLevel .cs (frameEvents c bs) = if c.hasCs then some true else none := by
  obtain ⟨body, hframe, hbody⟩ : ∃ body, frameEvents c bs = csEvent c false ++ body ++ csEvent c true
      ∧ lastLevel .cs body = none := by
    cases h : c.transport with
    | block => exact ⟨_, frameEvents_of_block h bs, rfl⟩
    | pins => exact ⟨_, frameEvents_of_pins h bs, lastLevel_cs_pinsOut bs⟩
  rw [hframe, lastLevel_append, lastLevel_append, hbody, lastLevel_cs_csEvent, lastLevel_cs_csEvent]
  split <;> rfl

/-- On the other pins a frame leaves what its bytes leave. -/
theorem lastLevel_frameEvents_of_pins {c : WFConfig} (h : c.transport = .pins) (bs : List Byte) {p : Pin}
    (hp : p ≠ .cs) : lastLevel p (frameEvents c bs) = lastLevel p (pinsOut bs) := by
  rw [frameEvents_of_pins h, lastLevel_append, lastLevel_append, lastLevel_csEvent_of_ne c _ hp,
    lastLevel_csEvent_of_ne c _ hp, Option.none_or, Option.or_none]

/-- A block write drives no pin but chip select. -/
theorem lastLevel_frameEvents_of_block {c : WFConfig} (h : c.transport = .block) (bs : List Byte)
    {p : Pin} (hp : p ≠ .cs) : lastLevel p (frameEvents c bs) = none := by
  rw [frameEvents_of_block h, lastLevel_append, lastLevel_append, lastLevel_csEvent_of_ne c _ hp,
    lastLevel_csEvent_of_ne c _ hp]
  rfl

/-! The init sequence (R243). -/

theorem cmdWire_eq_append (type : BitVec 4) (operand : Byte) : cmdWire type operand =
    [type ++ operand.extractLsb' 4 4] ++ [operand.extractLsb' 0 4 ++ 0#4] := rfl

/-- The last bit of a command frame is a padding bit (R76, R161). -/
theorem cmdWire_last_bit (operand : Byte) : (operand.extractLsb' 0 4 ++ 0#4).getLsbD 0 = false := by
  rw [BitVec.getLsbD_append]
  rfl

/-- Every command frame leaves the pins at the levels that the table of R35 gives. -/
theorem lastLevel_commandFrame (c : WFConfig) (type : BitVec 4) (operand : Byte) (p : Pin) :
    lastLevel p (frameEvents c (cmdWire type operand)) = (State.resetOf c).latch p := by
  cases p with
  | cs => exact lastLevel_cs_frameEvents c _
  | bl => exact lastLevel_eq_none (frameEvents_no_backlight c _)
  | clk =>
    cases h : c.transport with
    | block => simp [lastLevel_frameEvents_of_block h, State.latch, State.resetOf, resetClk, h]
    | pins =>
      rw [lastLevel_frameEvents_of_pins h _ (by decide), cmdWire_eq_append, lastLevel_clk_pinsOut]
      simp [State.latch, State.resetOf, resetClk, h]
  | data =>
    cases h : c.transport with
    | block => simp [lastLevel_frameEvents_of_block h, State.latch, State.resetOf, resetData, h]
    | pins =>
      rw [lastLevel_frameEvents_of_pins h _ (by decide), cmdWire_eq_append, lastLevel_data_pinsOut,
        cmdWire_last_bit]
      simp [State.latch, State.resetOf, resetData, h]

/-- Pieces of trace that all leave a pin at one level leave it there together. -/
theorem lastLevel_flatMap_of_forall {α : Type} {p : Pin} {v : Option Bool} {f : α → List Event}
    {l : List α} (hl : l ≠ []) (h : ∀ a ∈ l, lastLevel p (f a) = v) : lastLevel p (l.flatMap f) = v := by
  induction l with
  | nil => exact absurd rfl hl
  | cons a rest ih =>
    rw [List.flatMap_cons, lastLevel_append, h a List.mem_cons_self]
    cases rest with
    | nil => exact Option.none_or
    | cons b rest =>
      rw [ih (by simp) fun x hx => h x (List.mem_cons_of_mem _ hx), Option.or_self]

theorem State.resetOf_latchesFollowTrace (c : WFConfig) : LatchesFollowTrace (State.resetOf c) := by
  intro p
  have hsix : c.cmdInit.toList ≠ [] := List.ne_nil_of_length_pos (by simp)
  exact (lastLevel_flatMap_of_forall hsix fun o _ => lastLevel_commandFrame c c.cmdType o p).symm

theorem initEvents_allAllowed (c : WFConfig) : AllAllowed c.toConfig (initEvents c) := by
  intro e he
  obtain ⟨o, -, ho⟩ := List.mem_flatMap.mp he
  exact frameEvents_allAllowed c _ e ho

/-- The one block write of a frame is the frame's (R184). -/
theorem eq_of_blk_mem_frameEvents {c : WFConfig} {bs ws : List Byte}
    (h : Event.blk bs ∈ frameEvents c ws) : bs = ws := by
  have hcs (level : Bool) : Event.blk bs ∉ csEvent c level := by
    unfold csEvent
    split <;> simp
  cases htr : c.transport with
  | block => simpa [frameEvents_of_block htr, hcs] using h
  | pins =>
    have hpins : Event.blk bs ∉ pinsOut ws := by
      intro hmem
      obtain ⟨level, heq | heq⟩ := mem_pinsOut hmem <;> cases heq
    simp [frameEvents_of_pins htr, hcs, hpins] at h

/-- The init sequence sends command frames only (R245). -/
theorem length_of_blk_mem_initEvents {c : WFConfig} {bs : List Byte}
    (h : Event.blk bs ∈ initEvents c) : bs.length = 2 := by
  obtain ⟨o, -, ho⟩ := List.mem_flatMap.mp h
  rw [eq_of_blk_mem_frameEvents ho]
  rfl

theorem lastDataFrame_eq_none {tr : List Event} (h : ∀ bs, Event.blk bs ∈ tr → bs.length ≠ 18) :
    lastDataFrame tr = none := by
  unfold lastDataFrame
  rw [List.getLast?_eq_none_iff, List.filterMap_eq_nil_iff]
  intro e he
  cases e with
  | pin p l => rfl
  | blk bs => exact if_neg (h bs he)

/-! The state after reset (R35). -/

theorem State.resetOf_dataZero (c : WFConfig) : DataZero (State.resetOf c) := .of_mem_nil rfl

theorem State.resetOf_strapsRespected (c : WFConfig) : StrapsRespected (State.resetOf c) :=
  (strapsRespected_iff _).mpr (initEvents_allAllowed c)

/-- No data frame was sent, and the data region is 0 (R60, R245). -/
theorem State.resetOf_lastDataFrameIsBuffer (c : WFConfig) : LastDataFrameIsBuffer (State.resetOf c) := by
  intro _
  have hnone : lastDataFrame (State.resetOf c).out = none :=
    lastDataFrame_eq_none fun bs hbs => by
      rw [length_of_blk_mem_initEvents hbs]
      decide
  rw [hnone]
  exact State.resetOf_dataZero c

/-- Settles O22, invariant by invariant: the data region is 0 and the trace is the init sequence. -/
theorem resetSatisfiesInvariants : Obligations.ResetSatisfiesInvariants := by
  unfold Obligations.ResetSatisfiesInvariants
  intro c
  have hzero := State.resetOf_dataZero c
  exact ⟨State.resetOf_canonical c, hzero.unnamedBitsClear, hzero.pairsExclusive,
    hzero.pointsDark.atMostOne, State.resetOf_latchesFollowTrace c, State.resetOf_strapsRespected c,
    State.resetOf_lastDataFrameIsBuffer c⟩

theorem cmdInit_toList (c : WFConfig) : c.cmdInit.toList =
    [c.cmdInit[0], c.cmdInit[1], c.cmdInit[2], c.cmdInit[3], c.cmdInit[4], c.cmdInit[5]] := by
  apply List.ext_getElem
  · simp
  · intro i hi _
    rw [Vector.length_toList] at hi
    interval_cases i <;> rfl

/-- The init events, frame by frame (R243). -/
theorem initEvents_eq (c : WFConfig) : initEvents c =
    frameEvents c (cmdWire c.cmdType c.cmdInit[0]) ++ frameEvents c (cmdWire c.cmdType c.cmdInit[1])
      ++ frameEvents c (cmdWire c.cmdType c.cmdInit[2]) ++ frameEvents c (cmdWire c.cmdType c.cmdInit[3])
      ++ frameEvents c (cmdWire c.cmdType c.cmdInit[4])
      ++ frameEvents c (cmdWire c.cmdType c.cmdInit[5]) := by
  simp [initEvents, cmdInit_toList]

theorem resetClk_eq (c : WFConfig) : resetClk c = if c.transport = .pins then some true else none := by
  cases h : c.transport <;> simp [resetClk, h]

theorem resetData_eq (c : WFConfig) :
    resetData c = if c.transport = .pins then some false else none := by
  cases h : c.transport <;> simp [resetData, h]

/-- Settles O9: the table entry by entry; the trace is the init sequence, frame by frame. -/
theorem resetStateIsTheTable : Obligations.ResetStateIsTheTable := by
  unfold Obligations.ResetStateIsTheTable
  refine ⟨rfl, fun c => ?_, fun _ => ⟨rfl, rfl, rfl, rfl, rfl⟩⟩
  exact ⟨rfl, rfl, State.resetOf_dataZero c, rfl, rfl, rfl, rfl, resetClk_eq c, resetData_eq c,
    initEvents_eq c, rfl⟩

end Sys2Proof.Machine
end

section
/-! PROOFS. The display buffer as a store (spec/20_memory.md): its header is hard-wired (R21, R52), its
data region stays in canonical form (R50, R58), and in `BLOCK` transport the last data frame in the trace
is the buffer (R60). -/

namespace Sys2Proof.Machine

/-! The header (R21, R52). -/

theorem State.dbRead_zero (s : State) : s.dbRead 0 = s.cfg.hdr0 := if_pos rfl

theorem State.dbRead_one (s : State) : s.dbRead 1 = s.cfg.hdr1 :=
  (if_neg (by decide)).trans (if_pos rfl)

theorem State.dbWrite_of_header (s : State) {i : Index} (h : i.val < 2) (v : Byte) : s.dbWrite i v = s :=
  if_pos h

/-- Settles O23, by the first two cases of a read and the first of a write. -/
theorem headerIsHardwired : Obligations.HeaderIsHardwired := by
  unfold Obligations.HeaderIsHardwired
  intro s
  exact ⟨s.dbRead_zero, s.dbRead_one, fun _ v hi => s.dbWrite_of_header hi v⟩

/-! The canonical form, operation on the buffer by operation (R50, R58; log entry 13). -/

theorem MemoryCanonical.of_mem_eq {s t : State} (h : MemoryCanonical s) (hmem : t.mem = s.mem) :
    MemoryCanonical t := by
  unfold MemoryCanonical
  rw [hmem]
  exact h

theorem MemoryCanonical.foldl {α : Type} {f : State → α → State}
    (hf : ∀ {s} (a), MemoryCanonical s → MemoryCanonical (f s a)) (l : List α) {s : State}
    (h : MemoryCanonical s) : MemoryCanonical (l.foldl f s) := by
  induction l generalizing s with
  | nil => exact h
  | cons a rest ih => exact ih (hf a h)

section
variable {s : State} (h : MemoryCanonical s)
include h

theorem MemoryCanonical.setBits (off : Index) (m : Byte) : MemoryCanonical (s.setBits off m) :=
  State.dbWrite_canonical off _ h

theorem MemoryCanonical.clearBits (off : Index) (m : Byte) : MemoryCanonical (s.clearBits off m) :=
  State.dbWrite_canonical off _ h

theorem MemoryCanonical.segWrite (loc : Locator) (v : Bool) : MemoryCanonical (s.segWrite loc v) := by
  cases v with
  | true => exact h.setBits loc.off loc.mask
  | false => exact h.clearBits loc.off loc.mask

theorem MemoryCanonical.clearDps : MemoryCanonical s.clearDps :=
  .foldl (fun loc hs => hs.segWrite loc false) _ h

theorem MemoryCanonical.setDp (pos : Int) : MemoryCanonical (s.setDp pos) := by
  unfold State.setDp
  split
  · exact h.segWrite _ true
  · exact h

theorem MemoryCanonical.clearData : MemoryCanonical s.clearData :=
  .foldl (fun i hs => State.dbWrite_canonical i 0 hs) _ h

theorem MemoryCanonical.pairWrite (locA locB : Locator) (en mode : Bool) :
    MemoryCanonical (s.pairWrite locA locB en mode) := by
  unfold State.pairWrite
  split
  · exact (h.segWrite locA true).segWrite locB false
  · exact (h.segWrite locB true).segWrite locA false
  · exact (h.segWrite locA false).segWrite locB false

theorem MemoryCanonical.batteryWrite (p : Nat) : MemoryCanonical (s.batteryWrite p) :=
  .foldl (fun g hs => hs.segWrite g.1 _) _ h

theorem MemoryCanonical.signalWrite (bars : Nat) : MemoryCanonical (s.signalWrite bars) :=
  ((h.segWrite _ _).segWrite _ _).segWrite _ _

theorem MemoryCanonical.clearCell (k : Fin 6) : MemoryCanonical (s.clearCell k) :=
  ((h.clearBits _ _).clearBits _ _).clearBits _ _

theorem MemoryCanonical.putCell (k : Fin 6) (ch : Byte) : MemoryCanonical (s.putCell k ch) := by
  unfold State.putCell
  dsimp only
  split
  · exact (((h.clearCell k).setBits _ _).setBits _ _).setBits _ _
  · exact ((h.clearCell k).setBits _ _).setBits _ _

theorem MemoryCanonical.putText (t : Vector Byte 6) : MemoryCanonical (s.putText t) :=
  .foldl (fun k hs => hs.putCell k t[k]) _ h

theorem MemoryCanonical.showInteger (v : Int) : MemoryCanonical (s.showInteger v) :=
  (h.putText _).clearDps

theorem MemoryCanonical.showScaled (v : Int) (p : Nat) : MemoryCanonical (s.showScaled v p) :=
  (h.showInteger v).setDp _

theorem MemoryCanonical.wrFrame (V : BitVec 144) (n : Fin 19) : MemoryCanonical (s.wrFrame V n) := by
  obtain ⟨-, hmem, -⟩ := s.wrFrame_frame V n
  exact h.of_mem_eq hmem

theorem MemoryCanonical.flush : MemoryCanonical s.flush := h.wrFrame _ 18

theorem MemoryCanonical.switchIcon (id : Byte) (en : Bool) : MemoryCanonical (s.switchIcon id en) := by
  unfold State.switchIcon
  split
  · exact (h.segWrite _ en).flush
  · exact h

theorem MemoryCanonical.switchPair (id : Byte) (en mode : Bool) :
    MemoryCanonical (s.switchPair id en mode) := by
  unfold State.switchPair
  split
  · exact (h.pairWrite _ _ en mode).flush
  · exact h

theorem MemoryCanonical.switchBacklight (on : Bool) :
    MemoryCanonical (if s.cfg.hasBl then { s.emit (.pin .bl on) with blt := on } else s) := by
  split
  · exact h.of_mem_eq (s.emit_mem (.pin .bl on))
  · exact h

/-- The store after every operation, one operation at a time. -/
theorem exec_completes_canonical (i : Instr) : ∃ t, exec i s = .next t ∧ MemoryCanonical t := by
  cases i with
  | wrcmd type operand => exact ⟨_, rfl, h.wrFrame _ 2⟩
  | flush => exact ⟨_, rfl, h.flush⟩
  | clear => exact ⟨_, rfl, h.clearData.flush⟩
  | dispon => exact ⟨_, rfl, h.wrFrame _ 2⟩
  | dispoff => exact ⟨_, rfl, h.wrFrame _ 2⟩
  | blon => exact ⟨_, rfl, h.switchBacklight true⟩
  | bloff => exact ⟨_, rfl, h.switchBacklight false⟩
  | prtxt len c0 c1 c2 c3 c4 c5 => exact ⟨_, rfl, (h.putText _).flush⟩
  | print n => exact ⟨_, rfl, (h.showInteger _).flush⟩
  | prfix mult m => exact ⟨_, rfl, (h.showScaled _ _).flush⟩
  | prflt prec x => exact ⟨_, rfl, (h.showScaled _ _).flush⟩
  | icon id en => exact ⟨_, rfl, h.switchIcon id en⟩
  | icon2 id en mode => exact ⟨_, rfl, h.switchPair id en mode⟩
  | batt pct => exact ⟨_, rfl, (h.batteryWrite _).flush⟩
  | signal pct => exact ⟨_, rfl, (h.signalWrite _).flush⟩
  | cmdframe t o => exact ⟨_, rfl, h.wrFrame _ 2⟩

end

theorem exec_keeps_canonical {i : Instr} {s t : State} (h : MemoryCanonical s)
    (hexec : exec i s = .next t) : MemoryCanonical t := by
  obtain ⟨u, hu, hcanonical⟩ := exec_completes_canonical h i
  rw [hu] at hexec
  cases hexec
  exact hcanonical

/-- Reset empties the store, and the init sequence leaves it (R241, R245). -/
theorem State.restart_canonical (s : State) : MemoryCanonical s.restart := by
  have hempty : MemoryCanonical s.resetStart := Memory.wf_nil
  exact hempty.of_mem_eq (State.foldl_sendCmd_mem _ s.resetStart)

/-- Settles O15: every change of the store is a write to the data region, or reset, which empties it. -/
theorem stepKeepsMemoryCanonical : Obligations.StepKeepsMemoryCanonical := by
  unfold Obligations.StepKeepsMemoryCanonical
  intro s t h hstep
  obtain rfl | ⟨presented, rest, -, rfl⟩ | ⟨w, rest, u, -, -, hrun, rfl⟩ := step_cases hstep
  · exact h
  · exact State.restart_canonical _
  · have htaken : MemoryCanonical (s.take rest) := h.of_mem_eq (s.take_mem rest)
    refine MemoryCanonical.of_mem_eq ?_ u.release_mem
    obtain ⟨i, -, hexec⟩ | ⟨opc, -, rfl⟩ := runWord_cases hrun
    · exact exec_keeps_canonical htaken hexec
    · exact htaken

/-! A frame value gives back the bytes it was made of (R54, R162). -/

theorem frameValue_concat (ws : List Byte) (b : Byte) :
    frameValue (ws ++ [b]) = (frameValue ws <<< 8) ||| b.setWidth 144 :=
  List.foldl_concat ..

/-- Appending a byte to a frame value puts it at the last place. -/
theorem wireByte_append_last (V : BitVec 144) (b : Byte) (n : Nat) :
    wireByte ((V <<< 8) ||| b.setWidth 144) (n + 1) n = b := by
  have hzero : 8 * (n + 1 - 1 - n) = 0 := by omega
  unfold wireByte
  rw [hzero]
  ext j hj
  have hwide : j < 144 := by omega
  simp [hj, hwide]

/-- Appending a byte to a frame value leaves the wire bytes before it, as long as the frame fits. -/
theorem wireByte_append_of_lt (V : BitVec 144) (b : Byte) {n i : Nat} (hn : n < 18) (hi : i < n) :
    wireByte ((V <<< 8) ||| b.setWidth 144) (n + 1) i = wireByte V n i := by
  have hplace : 8 * (n + 1 - 1 - i) = 8 * (n - 1 - i) + 8 := by omega
  unfold wireByte
  rw [hplace]
  ext j hj
  have hfits : 8 * (n - 1 - i) + 8 + j < 144 := by omega
  have hpast : b.getLsbD (8 * (n - 1 - i) + 8 + j) = false := BitVec.getLsbD_of_ge _ _ (by omega)
  have hshift : 8 * (n - 1 - i) + 8 + j - 8 = 8 * (n - 1 - i) + j := by omega
  have hnot : ¬ 8 * (n - 1 - i) + 8 + j < 8 := by omega
  have hin : 8 * (n - 1 - i) + j < 144 := by omega
  simp [hfits, hpast, hshift, hnot, BitVec.getLsbD_eq_getElem hin]

theorem wireBytes_frameValue (ws : List Byte) (h : ws.length ≤ 18) :
    wireBytes (frameValue ws) ws.length = ws := by
  induction ws using List.reverseRecOn with
  | nil => rfl
  | append_singleton ws b ih =>
    rw [List.length_append, List.length_singleton] at h ⊢
    have hearlier : (List.range ws.length).map (wireByte (frameValue (ws ++ [b])) (ws.length + 1)) = ws :=
      calc (List.range ws.length).map (wireByte (frameValue (ws ++ [b])) (ws.length + 1))
        _ = wireBytes (frameValue ws) ws.length := List.map_congr_left fun i hi => by
          rw [frameValue_concat]
          exact wireByte_append_of_lt _ b (by omega) (List.mem_range.mp hi)
        _ = ws := ih (by omega)
    rw [wireBytes, List.range_succ, List.map_append, hearlier, frameValue_concat, List.map_singleton,
      wireByte_append_last]

theorem State.dbBytes_length (s : State) : s.dbBytes.length = 18 := List.length_map ..

/-- The wire bytes of the data frame are the buffer (R162). -/
theorem State.wireBytes_dataFrame (s : State) : wireBytes s.dataFrame 18 = s.dbBytes := by
  have hbytes := wireBytes_frameValue s.dbBytes s.dbBytes_length.le
  rwa [s.dbBytes_length] at hbytes

theorem State.dbBytes_of_sameBuffer {s t : State} (h : SameBuffer s t) : t.dbBytes = s.dbBytes :=
  List.map_congr_left fun i _ => h i

/-! The last data frame of a trace (R60). -/

theorem lastDataFrame_append (xs ys : List Event) :
    lastDataFrame (xs ++ ys) = (lastDataFrame ys).or (lastDataFrame xs) := by
  unfold lastDataFrame
  rw [List.filterMap_append, List.getLast?_append]

theorem lastDataFrame_blk {bs : List Byte} (h : bs.length = 18) : lastDataFrame [.blk bs] = some bs := by
  simp [lastDataFrame, h]

theorem lastDataFrame_csEvent (c : WFConfig) (level : Bool) : lastDataFrame (csEvent c level) = none := by
  unfold csEvent
  split <;> rfl

theorem lastDataFrame_frameEvents {c : WFConfig} (h : c.transport = .block) {bs : List Byte}
    (hbs : bs.length = 18) : lastDataFrame (frameEvents c bs) = some bs := by
  rw [frameEvents_of_block h, lastDataFrame_append, lastDataFrame_append, lastDataFrame_csEvent,
    lastDataFrame_csEvent, lastDataFrame_blk hbs]
  rfl

/-- A shorter frame is no data frame. -/
theorem lastDataFrame_frameEvents_of_ne (c : WFConfig) {bs : List Byte} (h : bs.length ≠ 18) :
    lastDataFrame (frameEvents c bs) = none :=
  lastDataFrame_eq_none fun _ hmem => eq_of_blk_mem_frameEvents hmem ▸ h

theorem lastDataFrameIsBuffer_iff (s : State) : LastDataFrameIsBuffer s ↔
    (s.cfg.transport = .block →
      (∀ bs, lastDataFrame s.out = some bs → bs = s.dbBytes)
        ∧ (lastDataFrame s.out = none → DataZero s)) := by
  unfold LastDataFrameIsBuffer DataZero
  cases lastDataFrame s.out <;> simp

/-! The last data frame and the buffer, through an operation and a step (R60, R169). -/

/-- Events without a data frame keep the invariant when the buffer stays as it was. -/
theorem LastDataFrameIsBuffer.of_events {es : List Event} {s t : State} (h : LastDataFrameIsBuffer s)
    (hcfg : t.cfg = s.cfg) (hsame : SameBuffer s t) (hout : t.out = s.out ++ es)
    (hnone : lastDataFrame es = none) : LastDataFrameIsBuffer t := by
  rw [lastDataFrameIsBuffer_iff] at h ⊢
  rw [hcfg, hout, lastDataFrame_append, hnone, Option.none_or, State.dbBytes_of_sameBuffer hsame]
  intro hblock
  obtain ⟨hsent, hfirst⟩ := h hblock
  exact ⟨hsent, fun hno => (hfirst hno).of_sameBuffer hsame⟩

theorem LastDataFrameIsBuffer.of_out_eq {s t : State} (h : LastDataFrameIsBuffer s)
    (hcfg : t.cfg = s.cfg) (hmem : t.mem = s.mem) (hout : t.out = s.out) : LastDataFrameIsBuffer t :=
  h.of_events hcfg (State.dbRead_of_mem_eq hcfg hmem) (hout.trans (List.append_nil _).symm) rfl

/-- A command frame is no data frame and leaves the buffer (R168, R170). -/
theorem LastDataFrameIsBuffer.wrCmd {s : State} (h : LastDataFrameIsBuffer s) (type : BitVec 4)
    (operand : Byte) : LastDataFrameIsBuffer (s.wrCmd type operand) := by
  obtain ⟨hcfg, hout, -⟩ := s.wrFrame_emits ((cmdFrame type operand).setWidth 144) 2
  exact h.of_events hcfg (s.wrFrame_sameBuffer _ 2) hout
    (lastDataFrame_frameEvents_of_ne s.cfg (by rw [wireBytes_length]; decide))

theorem LastDataFrameIsBuffer.foldl_sendCmd (operands : List Byte) {s : State}
    (h : LastDataFrameIsBuffer s) : LastDataFrameIsBuffer (operands.foldl State.sendCmd s) := by
  induction operands generalizing s with
  | nil => exact h
  | cons o rest ih => exact ih (h.wrCmd s.cfg.cmdType o)

/-- A flush makes the last data frame the buffer, whatever was sent before (R166). -/
theorem State.flush_lastDataFrameIsBuffer (s : State) : LastDataFrameIsBuffer s.flush := by
  have hcfg : s.flush.cfg = s.cfg := (s.wrFrame_frame s.dataFrame 18).1
  have hout : s.flush.out = s.out ++ frameEvents s.cfg s.dbBytes :=
    s.wireBytes_dataFrame ▸ s.wrFrame_out s.dataFrame 18
  rw [lastDataFrameIsBuffer_iff, hcfg, hout, State.dbBytes_of_sameBuffer s.flush_sameBuffer]
  intro hblock
  rw [lastDataFrame_append, lastDataFrame_frameEvents hblock s.dbBytes_length, Option.some_or]
  exact ⟨fun _ hbs => (Option.some.inj hbs).symm, fun hno => by cases hno⟩

/-- An operation that writes the buffer ends with a flush, and the others send no data frame (R169). -/
theorem OperationEffect.lastDataFrameIsBuffer {s t : State} (heff : OperationEffect s t)
    (h : LastDataFrameIsBuffer s) : LastDataFrameIsBuffer t := by
  cases heff with
  | nothing => exact h
  | flushed _ => exact State.flush_lastDataFrameIsBuffer _
  | command type operand => exact h.wrCmd type operand
  | display operand on => exact (h.wrCmd s.cfg.cmdType operand).of_out_eq rfl rfl rfl
  | backlight on _ =>
    have hsame : SameBuffer s (s.emit (.pin .bl on)) :=
      State.dbRead_of_mem_eq (s.emit_cfg _) (s.emit_mem _)
    exact h.of_events (s.emit_cfg (.pin .bl on)) hsame (s.emit_out (.pin .bl on)) rfl

/-- Reset empties the buffer and the trace, and its init sequence sends no data frame (R245). -/
theorem State.restart_lastDataFrameIsBuffer (s : State) : LastDataFrameIsBuffer s.restart := by
  have hstart : LastDataFrameIsBuffer s.resetStart :=
    (lastDataFrameIsBuffer_iff _).mpr fun _ => ⟨fun _ hbs => (by cases hbs), fun _ => .of_mem_nil rfl⟩
  exact (hstart.foldl_sendCmd s.cfg.cmdInit.toList).of_out_eq rfl rfl rfl

/-- Settles O21: a flush makes it so, and a step without one leaves the buffer and the last data frame, or
is reset. -/
theorem stepKeepsLastDataFrameEqualToBuffer : Obligations.StepKeepsLastDataFrameEqualToBuffer := by
  unfold Obligations.StepKeepsLastDataFrameEqualToBuffer
  intro s t h hstep
  obtain rfl | ⟨presented, rest, -, rfl⟩ | ⟨w, rest, u, -, -, hrun, rfl⟩ := step_cases hstep
  · exact h
  · exact State.restart_lastDataFrameIsBuffer _
  · have htaken : LastDataFrameIsBuffer (s.take rest) := h.of_out_eq rfl rfl rfl
    suffices hu : LastDataFrameIsBuffer u from hu.of_out_eq rfl rfl rfl
    obtain ⟨i, -, hexec⟩ | ⟨opc, -, rfl⟩ := runWord_cases hrun
    · exact (exec_effect hexec).lastDataFrameIsBuffer htaken
    · exact htaken

end Sys2Proof.Machine
end

section
/-! PROOFS. The decoder and the encoder of request words (spec/30_encoding.md). What the decoder reads is
said once, by an equation for each opcode of R72 over the three fields of R71. The round trip and the
re-encoding of a decoded word are then a few words of operands each, and that unlisted bits are ignored
(R75) follows from these two. -/

namespace Sys2Proof.Machine

open Sys2Proof.Laws (opc_request)

/-! Bits that stand side by side. -/

theorem extractLsb'_append_above {m n : Nat} (x : BitVec m) (y : BitVec n) (start len : Nat) :
    (x ++ y).extractLsb' (start + n) len = x.extractLsb' start len := by
  simp [BitVec.extractLsb'_append_eq_of_le]

theorem extractLsb'_append_adjacent {n : Nat} (x : BitVec n) (start len len' : Nat) :
    x.extractLsb' (start + len) len' ++ x.extractLsb' start len = x.extractLsb' start (len' + len) :=
  BitVec.extractLsb'_append_extractLsb'_eq_extractLsb' rfl

/-- A byte below the bits read does not matter. -/
@[simp] theorem extractLsb'_append_byte_above {n : Nat} (x : BitVec n) (y : Byte) (start len : Nat) :
    (x ++ y).extractLsb' (start + 8) len = x.extractLsb' start len :=
  extractLsb'_append_above x y start len

@[simp] theorem extractLsb'_append_byte {n : Nat} (x : BitVec n) (y : Byte) :
    (x ++ y).extractLsb' 0 8 = y :=
  BitVec.extractLsb'_append_eq_right

theorem ofBool_getLsbD {n : Nat} (x : BitVec n) (k : Nat) :
    BitVec.ofBool (x.getLsbD k) = x.extractLsb' k 1 := by
  ext i hi
  obtain rfl : i = 0 := by omega
  simp

/-! The fields of a request word (R71). -/

@[simp] theorem a_request (opc a : Byte) (b : BitVec 48) : Req.a (request opc a b) = a :=
  (extractLsb'_append_above (opc ++ a) b 0 8).trans BitVec.extractLsb'_append_eq_right

@[simp] theorem b_request (opc a : Byte) (b : BitVec 48) : Req.b (request opc a b) = b :=
  BitVec.extractLsb'_append_eq_right

/-- A request word is nothing but its three fields. -/
theorem request_fields (w : Req) : request (Req.opc w) (Req.a w) (Req.b w) = w :=
  calc request (Req.opc w) (Req.a w) (Req.b w)
      = w.extractLsb' 48 16 ++ Req.b w :=
        congrArg (· ++ Req.b w) (extractLsb'_append_adjacent w 48 8 8)
    _ = w.extractLsb' 0 64 := extractLsb'_append_adjacent w 0 48 16
    _ = w := BitVec.extractLsb'_eq_self

theorem request_and (opc opc' a a' : Byte) (b b' : BitVec 48) :
    request opc a b &&& request opc' a' b' = request (opc &&& opc') (a &&& a') (b &&& b') :=
  BitVec.and_append.trans (congrArg (· ++ (b &&& b')) BitVec.and_append)

/-! The operands within their fields (R73). -/

/-- An operand in the low bits of its field is read back. -/
theorem extractLsb'_setWidth_self {k n : Nat} (h : k ≤ n) (x : BitVec k) :
    (x.setWidth n).extractLsb' 0 k = x := by
  simp [BitVec.extractLsb'_setWidth_of_le, h]

/-- An operand read from the low bits of its field and written back leaves the field with the bits above
it cleared. -/
theorem setWidth_extractLsb'_eq_and {n : Nat} (k : Nat) (x : BitVec n) :
    (x.extractLsb' 0 k).setWidth n = x &&& (BitVec.allOnes k).setWidth n := by
  ext i hi
  simp [BitVec.getLsbD_eq_getElem hi, Bool.and_comm]

/-- The enable bit of ICON, read and written back. -/
theorem bitOperand_getLsbD_zero (b : BitVec 48) :
    bitOperand (b.getLsbD 0) = b &&& (BitVec.allOnes 1).setWidth 48 := by
  rw [bitOperand, ofBool_getLsbD, setWidth_extractLsb'_eq_and]

/-- The two bits of ICON2, read and written back. -/
theorem bitOperand_pair_getLsbD (b : BitVec 48) :
    bitOperand (b.getLsbD 1) <<< 1 ||| bitOperand (b.getLsbD 0)
      = b &&& (BitVec.allOnes 2).setWidth 48 := by
  calc bitOperand (b.getLsbD 1) <<< 1 ||| bitOperand (b.getLsbD 0)
      = (BitVec.ofBool (b.getLsbD 1) ++ BitVec.ofBool (b.getLsbD 0)).setWidth 48 :=
        BitVec.setWidth_append_eq_shiftLeft_setWidth_or.symm
    _ = (b.extractLsb' 0 2).setWidth 48 := by
        rw [ofBool_getLsbD, ofBool_getLsbD, ← extractLsb'_append_adjacent b 0 1 1]
    _ = b &&& (BitVec.allOnes 2).setWidth 48 := setWidth_extractLsb'_eq_and 2 b

@[simp] theorem bitOperand_getElem (v : Bool) {i : Nat} (h : i < 48) :
    (bitOperand v)[i] = (decide (i = 0) && v) := by
  simp [bitOperand]

/-- The multiplier of PRFIX, written to the two fields and read from them. -/
theorem append_multiplier (mult : BitVec 24) (m : BitVec 32) :
    mult.extractLsb' 16 8 ++ (mult.extractLsb' 0 16 ++ m).extractLsb' 32 16 = mult := by
  rw [extractLsb'_append_above _ m 0 16, BitVec.extractLsb'_eq_self]
  exact (extractLsb'_append_adjacent mult 0 16 8).trans BitVec.extractLsb'_eq_self

/-- The field `B` of PRFIX, read and written back. -/
theorem append_multiplier_low (a : Byte) (b : BitVec 48) :
    (a ++ b.extractLsb' 32 16).extractLsb' 0 16 ++ b.extractLsb' 0 32 = b := by
  have hlow : (a ++ b.extractLsb' 32 16).extractLsb' 0 16 = b.extractLsb' 32 16 :=
    BitVec.extractLsb'_append_eq_right
  rw [hlow]
  exact (extractLsb'_append_adjacent b 0 32 16).trans BitVec.extractLsb'_eq_self

/-- The six characters of PRTXT, read and written back. -/
theorem append_characters (b : BitVec 48) :
    b.extractLsb' 40 8 ++ b.extractLsb' 32 8 ++ b.extractLsb' 24 8 ++ b.extractLsb' 16 8
      ++ b.extractLsb' 8 8 ++ b.extractLsb' 0 8 = b := by
  simp only [extractLsb'_append_adjacent b 32 8, extractLsb'_append_adjacent b 24 8,
    extractLsb'_append_adjacent b 16 8, extractLsb'_append_adjacent b 8 8,
    extractLsb'_append_adjacent b 0 8]
  exact BitVec.extractLsb'_eq_self

/-! What the decoder reads, opcode by opcode (R72, R73). -/

section
variable (a : Byte) (b : BitVec 48)

theorem decodeRequest_wrcmd :
    decodeRequest (request 0x01 a b) = .ok (.wrcmd (a.extractLsb' 0 4) (b.extractLsb' 0 8)) := by
  simp [decodeRequest, opc_request]

theorem decodeRequest_flush : decodeRequest (request 0x02 a b) = .ok .flush := by
  simp [decodeRequest, opc_request]

theorem decodeRequest_clear : decodeRequest (request 0x03 a b) = .ok .clear := by
  simp [decodeRequest, opc_request]

theorem decodeRequest_dispon : decodeRequest (request 0x04 a b) = .ok .dispon := by
  simp [decodeRequest, opc_request]

theorem decodeRequest_dispoff : decodeRequest (request 0x05 a b) = .ok .dispoff := by
  simp [decodeRequest, opc_request]

theorem decodeRequest_blon : decodeRequest (request 0x06 a b) = .ok .blon := by
  simp [decodeRequest, opc_request]

theorem decodeRequest_bloff : decodeRequest (request 0x07 a b) = .ok .bloff := by
  simp [decodeRequest, opc_request]

theorem decodeRequest_prtxt :
    decodeRequest (request 0x10 a b)
      = .ok (.prtxt (a.extractLsb' 0 3) (b.extractLsb' 40 8) (b.extractLsb' 32 8) (b.extractLsb' 24 8)
          (b.extractLsb' 16 8) (b.extractLsb' 8 8) (b.extractLsb' 0 8)) := by
  simp [decodeRequest, opc_request]

theorem decodeRequest_print :
    decodeRequest (request 0x11 a b) = .ok (.print (b.extractLsb' 0 32)) := by
  simp [decodeRequest, opc_request]

theorem decodeRequest_prfix :
    decodeRequest (request 0x12 a b)
      = .ok (.prfix (a ++ b.extractLsb' 32 16) (b.extractLsb' 0 32)) := by
  simp [decodeRequest, opc_request]

theorem decodeRequest_prflt :
    decodeRequest (request 0x13 a b) = .ok (.prflt (a.extractLsb' 0 3) (b.extractLsb' 0 32)) := by
  simp [decodeRequest, opc_request]

theorem decodeRequest_icon : decodeRequest (request 0x20 a b) = .ok (.icon a (b.getLsbD 0)) := by
  simp [decodeRequest, opc_request]

theorem decodeRequest_icon2 :
    decodeRequest (request 0x21 a b) = .ok (.icon2 a (b.getLsbD 0) (b.getLsbD 1)) := by
  simp [decodeRequest, opc_request]

theorem decodeRequest_batt :
    decodeRequest (request 0x22 a b) = .ok (.batt (b.extractLsb' 0 8)) := by
  simp [decodeRequest, opc_request]

theorem decodeRequest_signal :
    decodeRequest (request 0x23 a b) = .ok (.signal (b.extractLsb' 0 8)) := by
  simp [decodeRequest, opc_request]

end

theorem decodeRequest_reserved {w : Req} (h : Req.opc w ∉ listedOpcodes) :
    decodeRequest w = .error (.reservedOpcode (Req.opc w)) := by
  unfold decodeRequest
  dsimp only
  split
  iterate 15 (next hopc => exact absurd (by rw [hopc]; decide) h)
  rfl

/-- The wire frame of a command gives its type and its operand back (R76). -/
theorem decodeFrame_cmdFrame (t : BitVec 4) (o : Byte) :
    decodeFrame (cmdFrame t o) = .ok (.cmdframe t o) := by
  have hpad : (cmdFrame t o).extractLsb' 0 4 = 0#4 := BitVec.extractLsb'_append_eq_right
  have ht : (cmdFrame t o).extractLsb' 12 4 = t :=
    (extractLsb'_append_above (t ++ o) 0#4 8 4).trans BitVec.extractLsb'_append_eq_left
  have ho : (cmdFrame t o).extractLsb' 4 8 = o :=
    (extractLsb'_append_above (t ++ o) 0#4 0 8).trans BitVec.extractLsb'_append_eq_right
  rw [decodeFrame, if_pos hpad, ht, ho]

/-- Settles O1, operation by operation: each operand is read from the bits it was written to. -/
theorem decodeReturnsEncodedOperation : Obligations.DecodeReturnsEncodedOperation := by
  unfold Obligations.DecodeReturnsEncodedOperation
  intro i
  cases i with
  | wrcmd type operand => exact (decodeRequest_wrcmd _ _).trans (by simp [extractLsb'_setWidth_self])
  | flush => exact decodeRequest_flush 0 0
  | clear => exact decodeRequest_clear 0 0
  | dispon => exact decodeRequest_dispon 0 0
  | dispoff => exact decodeRequest_dispoff 0 0
  | blon => exact decodeRequest_blon 0 0
  | bloff => exact decodeRequest_bloff 0 0
  | prtxt len c0 c1 c2 c3 c4 c5 =>
    exact (decodeRequest_prtxt _ _).trans (by simp [extractLsb'_setWidth_self])
  | print n => exact (decodeRequest_print _ _).trans (by simp [extractLsb'_setWidth_self])
  | prfix mult m =>
    have hm : (mult.extractLsb' 0 16 ++ m).extractLsb' 0 32 = m := BitVec.extractLsb'_append_eq_right
    exact (decodeRequest_prfix _ _).trans (by rw [append_multiplier, hm])
  | prflt prec x => exact (decodeRequest_prflt _ _).trans (by simp [extractLsb'_setWidth_self])
  | icon id en => exact (decodeRequest_icon _ _).trans (by simp)
  | icon2 id en mode => exact (decodeRequest_icon2 _ _).trans (by simp)
  | batt pct => exact (decodeRequest_batt _ _).trans (by simp [extractLsb'_setWidth_self])
  | signal pct => exact (decodeRequest_signal _ _).trans (by simp [extractLsb'_setWidth_self])
  | cmdframe t o => exact decodeFrame_cmdFrame t o

/-! A decoded word is written again but for the bits R73 does not list (R73, R75). -/

/-- `w` decodes, and the encoder writes `w` again with every unlisted bit cleared. -/
def Reencodes (w : Req) : Prop :=
  ∃ i, decodeRequest w = .ok i ∧ encode i = .req (w &&& listedBits (Req.opc w))

/-- A word re-encodes when the encoder writes each operand field again under the mask that R73 sets. -/
theorem Reencodes.of_fields {opc a b a' b' ma mb} {i : Instr}
    (hdec : decodeRequest (request opc a b) = .ok i) (henc : encode i = .req (request opc a' b'))
    (ha : a' = a &&& ma) (hb : b' = b &&& mb) (hmask : listedBits opc = request 0xFF ma mb) :
    Reencodes (request opc a b) := by
  refine ⟨i, hdec, ?_⟩
  have hopc : opc &&& 0xFF = opc := BitVec.and_allOnes
  rw [henc, opc_request, hmask, request_and, hopc, ha, hb]

/-- Each listed opcode, with the masks of its two operand fields. -/
theorem reencodes_request {opc : Byte} (h : opc ∈ listedOpcodes) (a : Byte) (b : BitVec 48) :
    Reencodes (request opc a b) := by
  simp only [listedOpcodes, List.mem_cons, List.not_mem_nil, or_false] at h
  obtain rfl | rfl | rfl | rfl | rfl | rfl | rfl | rfl | rfl | rfl | rfl | rfl | rfl | rfl | rfl := h
  · exact .of_fields (decodeRequest_wrcmd a b) rfl (setWidth_extractLsb'_eq_and 4 a)
      (setWidth_extractLsb'_eq_and 8 b) rfl
  · exact .of_fields (decodeRequest_flush a b) rfl BitVec.and_zero.symm BitVec.and_zero.symm rfl
  · exact .of_fields (decodeRequest_clear a b) rfl BitVec.and_zero.symm BitVec.and_zero.symm rfl
  · exact .of_fields (decodeRequest_dispon a b) rfl BitVec.and_zero.symm BitVec.and_zero.symm rfl
  · exact .of_fields (decodeRequest_dispoff a b) rfl BitVec.and_zero.symm BitVec.and_zero.symm rfl
  · exact .of_fields (decodeRequest_blon a b) rfl BitVec.and_zero.symm BitVec.and_zero.symm rfl
  · exact .of_fields (decodeRequest_bloff a b) rfl BitVec.and_zero.symm BitVec.and_zero.symm rfl
  · exact .of_fields (decodeRequest_prtxt a b) rfl (setWidth_extractLsb'_eq_and 3 a)
      ((append_characters b).trans BitVec.and_allOnes.symm) rfl
  · exact .of_fields (decodeRequest_print a b) rfl BitVec.and_zero.symm
      (setWidth_extractLsb'_eq_and 32 b) rfl
  · exact .of_fields (decodeRequest_prfix a b) rfl
      (BitVec.extractLsb'_append_eq_left.trans BitVec.and_allOnes.symm)
      ((append_multiplier_low a b).trans BitVec.and_allOnes.symm) rfl
  · exact .of_fields (decodeRequest_prflt a b) rfl (setWidth_extractLsb'_eq_and 3 a)
      (setWidth_extractLsb'_eq_and 32 b) rfl
  · exact .of_fields (decodeRequest_icon a b) rfl BitVec.and_allOnes.symm
      (bitOperand_getLsbD_zero b) rfl
  · exact .of_fields (decodeRequest_icon2 a b) rfl BitVec.and_allOnes.symm
      (bitOperand_pair_getLsbD b) rfl
  · exact .of_fields (decodeRequest_batt a b) rfl BitVec.and_zero.symm
      (setWidth_extractLsb'_eq_and 8 b) rfl
  · exact .of_fields (decodeRequest_signal a b) rfl BitVec.and_zero.symm
      (setWidth_extractLsb'_eq_and 8 b) rfl

theorem reencodes_of_listed {w : Req} (h : Req.opc w ∈ listedOpcodes) : Reencodes w :=
  request_fields w ▸ reencodes_request h (Req.a w) (Req.b w)

theorem opc_listed_of_decodeRequest {w : Req} {i : Instr} (h : decodeRequest w = .ok i) :
    Req.opc w ∈ listedOpcodes := by
  by_contra hopc
  rw [decodeRequest_reserved hopc] at h
  cases h

/-- Settles O4: a listed opcode decodes, and every other is rejected. -/
theorem exactlyTheListedOpcodesDecode : Obligations.ExactlyTheListedOpcodesDecode := by
  unfold Obligations.ExactlyTheListedOpcodesDecode
  intro w
  refine ⟨⟨fun ⟨_, hdec⟩ => opc_listed_of_decodeRequest hdec, fun h => ?_⟩,
    decodeRequest_reserved⟩
  obtain ⟨i, hdec, -⟩ := reencodes_of_listed h
  exact ⟨i, hdec⟩

theorem encode_of_decodeRequest {w : Req} {i : Instr} (h : decodeRequest w = .ok i) :
    encode i = .req (w &&& listedBits (Req.opc w)) := by
  obtain ⟨j, hdec, henc⟩ := reencodes_of_listed (opc_listed_of_decodeRequest h)
  rw [h] at hdec
  cases hdec
  exact henc

theorem encode_of_decodeFrame {v : BitVec 16} {i : Instr} (h : decodeFrame v = .ok i) :
    encode i = .wire v := by
  unfold decodeFrame at h
  split at h
  next hpad =>
    cases h
    refine congrArg FetchWord.wire ?_
    calc v.extractLsb' 12 4 ++ v.extractLsb' 4 8 ++ 0#4
        = v.extractLsb' 4 12 ++ v.extractLsb' 0 4 := by
          rw [extractLsb'_append_adjacent v 4 8 4, hpad]
      _ = v.extractLsb' 0 16 := extractLsb'_append_adjacent v 0 4 12
      _ = v := BitVec.extractLsb'_eq_self
  next => cases h

/-- Settles O2, for request words and for the wire frame. -/
theorem encodeKeepsEveryListedBit : Obligations.EncodeKeepsEveryListedBit := by
  unfold Obligations.EncodeKeepsEveryListedBit
  exact ⟨fun _ _ => encode_of_decodeRequest, fun _ _ => encode_of_decodeFrame⟩

/-! Unlisted operand bits (R75). -/

/-- By the two round trips the decoder cannot tell a word from the same word with its unlisted bits
cleared. -/
theorem decodeRequest_masked {w : Req} (h : Req.opc w ∈ listedOpcodes) :
    decodeRequest (w &&& listedBits (Req.opc w)) = decodeRequest w := by
  obtain ⟨i, hdec, henc⟩ := reencodes_of_listed h
  have hround : decode (encode i) = .ok i := decodeReturnsEncodedOperation i
  rw [henc] at hround
  exact hround.trans hdec.symm

theorem decodeRequest_eq_of_listedBits {w w' : Req} (hopc : Req.opc w = Req.opc w')
    (hbits : w &&& listedBits (Req.opc w) = w' &&& listedBits (Req.opc w)) :
    decodeRequest w = decodeRequest w' := by
  by_cases h : Req.opc w ∈ listedOpcodes
  · have h' : Req.opc w' ∈ listedOpcodes := hopc ▸ h
    rw [← decodeRequest_masked h, hbits, hopc, decodeRequest_masked h']
  · have h' : Req.opc w' ∉ listedOpcodes := hopc ▸ h
    rw [decodeRequest_reserved h, decodeRequest_reserved h', hopc]

/-- A step sees a presented word through the decoder only. -/
theorem step_present_congr {w w' : FetchWord} (h : decode w = decode w') (s : State) :
    step (s.present w) = step (s.present w') := by
  rw [step_of_word_ready (s := s.present w) rfl rfl, step_of_word_ready (s := s.present w') rfl rfl,
    runWord, runWord, h]
  rfl

/-- What the encoder writes holds no unlisted bit: decoded and written again it is the same word, and
also that word with its unlisted bits cleared. -/
theorem encode_unlisted_zero {i : Instr} {w : Req} (h : encode i = .req w) :
    w &&& ~~~(listedBits (Req.opc w)) = 0#64 := by
  have hdec : decode (.req w) = .ok i := h ▸ decodeReturnsEncodedOperation i
  have hmasked : w = w &&& listedBits (Req.opc w) :=
    FetchWord.req.inj (h.symm.trans (encode_of_decodeRequest hdec))
  calc w &&& ~~~(listedBits (Req.opc w))
      = w &&& listedBits (Req.opc w) &&& ~~~(listedBits (Req.opc w)) :=
        congrArg (· &&& ~~~(listedBits (Req.opc w))) hmasked
    _ = 0#64 := by simp [BitVec.and_assoc]

/-- Settles O3, from the round trip and the re-encoding. -/
theorem unlistedOperandBitsAreIgnored : Obligations.UnlistedOperandBitsAreIgnored := by
  unfold Obligations.UnlistedOperandBitsAreIgnored
  refine ⟨fun w w' hopc hbits => ?_, fun _ _ => encode_unlisted_zero⟩
  have hdec := decodeRequest_eq_of_listedBits hopc hbits
  exact ⟨hdec, step_present_congr hdec⟩

/-- Settles O5, by evaluating the decoder on each word. -/
theorem sampleWordsDecode : Obligations.SampleWordsDecode := by
  unfold Obligations.SampleWordsDecode
  exact ⟨rfl, rfl, rfl, rfl, rfl, rfl, rfl, rfl, rfl, rfl, rfl⟩

/-- Settles O7: the decoder rejects the request as reserved, and the step goes on without it. -/
theorem reservedRequestIsTakenAndDoesNothing : Obligations.ReservedRequestIsTakenAndDoesNothing := by
  unfold Obligations.ReservedRequestIsTakenAndDoesNothing
  intro s w rest hb hin hopc
  have hdec : decode (.req w) = .error (.reservedOpcode (Req.opc w)) := decodeRequest_reserved hopc
  rw [step_of_word_ready hb hin, runWord_of_decode_error hdec]
  change Host.Outcome.next { s with inputs := rest, busy := false } = _
  rw [← hb]

end Sys2Proof.Machine
end

section
/-! PROOFS. Every operation is idempotent on the display buffer (spec/40_encoder.md R107 (c),
spec/41_segment_map.md R129 (a), spec/42_numeric_frontend.md R152 (e)), for one reason: under a fixed
configuration an operation gives each bit of the buffer a value of its own, whatever the bit was, or leaves
the bit alone. -/

namespace Sys2Proof.Machine

/-! Buffers compared bit by bit. -/

theorem sameBuffer_iff_bit {s t : State} : SameBuffer s t ↔ ∀ i b, t.bit i b = s.bit i b := by
  refine ⟨fun h i b => by rw [State.bit, State.bit, h i], fun h i => ?_⟩
  exact BitVec.eq_of_getLsbD_eq fun b _ => h i b

/-- What every bit reads after a write: the header is not written (R52). -/
theorem State.bit_dbWrite (s : State) (i j : Index) (v : Byte) (b : Nat) :
    (s.dbWrite i v).bit j b = if j = i ∧ 2 ≤ i.val then v.getLsbD b else s.bit j b := by
  unfold State.bit
  rw [State.dbRead_dbWrite]
  split <;> rfl

/-! Operations that give a bit a value or leave it. -/

/-- Under the configuration `c`, `f` leaves each bit of the buffer, or gives it a value that does not
depend on the state. -/
structure Overwrites (c : WFConfig) (f : State → State) : Prop where
  cfg : ∀ s, s.cfg = c → (f s).cfg = c
  bit : ∀ i b, (∀ s, s.cfg = c → (f s).bit i b = s.bit i b)
    ∨ ∃ v, ∀ s, s.cfg = c → (f s).bit i b = v

section
variable {c : WFConfig} {f g : State → State}

theorem Overwrites.idempotent (h : Overwrites c f) {s : State} (hs : s.cfg = c) :
    SameBuffer (f s) (f (f s)) := by
  rw [sameBuffer_iff_bit]
  intro i b
  obtain hkept | ⟨v, hgiven⟩ := h.bit i b
  · exact hkept (f s) (h.cfg s hs)
  · rw [hgiven s hs, hgiven (f s) (h.cfg s hs)]

theorem Overwrites.congr (h : Overwrites c f) (heq : ∀ s, s.cfg = c → g s = f s) : Overwrites c g where
  cfg s hs := heq s hs ▸ h.cfg s hs
  bit i b := (h.bit i b).imp (fun hkept s hs => heq s hs ▸ hkept s hs)
    fun ⟨v, hgiven⟩ => ⟨v, fun s hs => heq s hs ▸ hgiven s hs⟩

theorem Overwrites.of_sameBuffer (hcfg : ∀ s, (f s).cfg = s.cfg) (h : ∀ s, SameBuffer s (f s)) :
    Overwrites c f where
  cfg s hs := (hcfg s).trans hs
  bit i b := .inl fun s _ => sameBuffer_iff_bit.mp (h s) i b

theorem Overwrites.id : Overwrites c fun s => s := .of_sameBuffer (fun _ => rfl) fun _ _ => rfl

/-- The later of two operations decides, and what it leaves the earlier one decides. -/
theorem Overwrites.andThen (hf : Overwrites c f) (hg : Overwrites c g) :
    Overwrites c fun s => g (f s) where
  cfg s hs := hg.cfg _ (hf.cfg s hs)
  bit i b := by
    obtain hkept | ⟨v, hgiven⟩ := hg.bit i b
    · refine (hf.bit i b).imp (fun hkept' s hs => ?_) fun ⟨v, hgiven⟩ => ⟨v, fun s hs => ?_⟩
      · rw [hkept _ (hf.cfg s hs), hkept' s hs]
      · rw [hkept _ (hf.cfg s hs), hgiven s hs]
    · exact .inr ⟨v, fun s hs => hgiven _ (hf.cfg s hs)⟩

theorem Overwrites.foldl {α : Type} {f : State → α → State} (h : ∀ a, Overwrites c fun s => f s a)
    (l : List α) : Overwrites c fun s => l.foldl f s := by
  induction l with
  | nil => exact .id
  | cons a rest ih => exact (h a).andThen ih

end

/-! The operations on the buffer. -/

section
variable {c : WFConfig}

theorem Overwrites.dbWrite (i : Index) (v : Byte) : Overwrites c fun s => s.dbWrite i v where
  cfg s hs := (s.dbWrite_cfg i v).trans hs
  bit j b := by
    by_cases h : j = i ∧ 2 ≤ i.val
    · exact .inr ⟨v.getLsbD b, fun s _ => by rw [State.bit_dbWrite, if_pos h]⟩
    · exact .inl fun s _ => by rw [State.bit_dbWrite, if_neg h]

theorem Overwrites.setBits (off : Index) (m : Byte) : Overwrites c fun s => s.setBits off m where
  cfg s hs := (s.setBits_onlyBuffer off m).cfg_eq.trans hs
  bit i b := by
    cases h : decide (i = off) && decide (2 ≤ off.val) && m.getLsbD b with
    | true => exact .inr ⟨true, fun s _ => by rw [State.bit_setBits, h, Bool.or_true]⟩
    | false => exact .inl fun s _ => by rw [State.bit_setBits, h, Bool.or_false]

theorem Overwrites.clearBits (off : Index) (m : Byte) : Overwrites c fun s => s.clearBits off m where
  cfg s hs := (s.clearBits_onlyBuffer off m).cfg_eq.trans hs
  bit i b := by
    cases h : decide (i = off) && decide (2 ≤ off.val) && m.getLsbD b with
    | true => exact .inr ⟨false, fun s _ => by rw [State.bit_clearBits, h, Bool.not_true, Bool.and_false]⟩
    | false => exact .inl fun s _ => by rw [State.bit_clearBits, h, Bool.not_false, Bool.and_true]

theorem Overwrites.segWrite (loc : Locator) (v : Bool) : Overwrites c fun s => s.segWrite loc v := by
  cases v with
  | true => exact .setBits loc.off loc.mask
  | false => exact .clearBits loc.off loc.mask

theorem Overwrites.clearCell (k : Fin 6) : Overwrites c fun s => s.clearCell k :=
  ((clearBits c.cell[k].oH (0x07#8 <<< c.cell[k].shH)).andThen (clearBits c.cell[k].oL 0x07#8)).andThen
    (clearBits c.cell[k].oS c.cell[k].mS) |>.congr fun s hs => by subst hs; rfl

theorem Overwrites.putCell (k : Fin 6) (ch : Byte) : Overwrites c fun s => s.putCell k ch := by
  have hgroups := ((clearCell (c := c) k).andThen (setBits c.cell[k].oH
    ((split (glyphOf c ch)).1.setWidth 8 <<< c.cell[k].shH))).andThen
      (setBits c.cell[k].oL ((split (glyphOf c ch)).2.1.setWidth 8))
  cases hsingle : (split (glyphOf c ch)).2.2 with
  | true =>
    refine (hgroups.andThen (setBits c.cell[k].oS c.cell[k].mS)).congr fun s hs => ?_
    subst hs
    exact if_pos hsingle
  | false =>
    refine hgroups.congr fun s hs => ?_
    subst hs
    exact if_neg (Bool.eq_false_iff.mp hsingle)

theorem Overwrites.putText (t : Vector Byte 6) : Overwrites c fun s => s.putText t :=
  foldl (fun k : Fin 6 => putCell k t[k]) cellIndices

theorem Overwrites.clearDps : Overwrites c fun s => s.clearDps :=
  (foldl (fun loc => segWrite loc false) c.dploc.toList).congr fun s hs => by subst hs; rfl

theorem Overwrites.setDp (pos : Int) : Overwrites c fun s => s.setDp pos := by
  by_cases h : 1 ≤ pos ∧ pos ≤ 5
  · refine (segWrite (c.dploc[(pos - 1).toNat]'(by omega)) true).congr fun s hs => ?_
    subst hs
    exact dif_pos h
  · exact Overwrites.id.congr fun s _ => dif_neg h

theorem Overwrites.clearData : Overwrites c fun s => s.clearData :=
  foldl (fun i => dbWrite i 0) dataIndices

theorem Overwrites.showInteger (v : Int) : Overwrites c fun s => s.showInteger v :=
  (putText (fmt6 v)).andThen clearDps

theorem Overwrites.showScaled (v : Int) (p : Nat) : Overwrites c fun s => s.showScaled v p :=
  (showInteger v).andThen (setDp (dpPosition p))

theorem Overwrites.pairWrite (locA locB : Locator) (en mode : Bool) :
    Overwrites c fun s => s.pairWrite locA locB en mode :=
  match en, mode with
  | true, false => (segWrite locA true).andThen (segWrite locB false)
  | true, true => (segWrite locB true).andThen (segWrite locA false)
  | false, _ => (segWrite locA false).andThen (segWrite locB false)

theorem Overwrites.batteryWrite (p : Nat) : Overwrites c fun s => s.batteryWrite p :=
  (foldl (f := fun s (g : Locator × Nat) => s.segWrite g.1 (decide (p > g.2)))
    (fun g => segWrite g.1 _) c.bat).congr fun s hs => by subst hs; rfl

theorem Overwrites.signalWrite (bars : Nat) : Overwrites c fun s => s.signalWrite bars :=
  ((segWrite c.sigloc[0] (decide (bars > 0))).andThen (segWrite c.sigloc[1] (decide (bars > 1)))).andThen
    (segWrite c.sigloc[2] (decide (bars > 2))) |>.congr fun s hs => by subst hs; rfl

/-! The operations of the opcode table. -/

theorem Overwrites.flush : Overwrites c State.flush :=
  of_sameBuffer (fun s => (s.wrFrame_frame _ 18).1) State.flush_sameBuffer

theorem Overwrites.wrCmd (type : BitVec 4) (operand : Byte) : Overwrites c fun s => s.wrCmd type operand :=
  of_sameBuffer (fun s => (s.wrFrame_frame _ 2).1) fun s => s.wrFrame_sameBuffer _ 2

/-- DISPON and DISPOFF in one: a command frame, and the display latch is no part of the buffer. -/
theorem Overwrites.switchDisplay (operand : State → Byte) (on : Bool) :
    Overwrites c fun s => { s.sendCmd (operand s) with disp := on } :=
  of_sameBuffer (fun s => (s.wrFrame_frame _ 2).1) fun s => s.wrFrame_sameBuffer _ 2

/-- BLON and BLOFF in one: an event is no part of the buffer. -/
theorem Overwrites.switchBacklight (on : Bool) :
    Overwrites c fun s => if s.cfg.hasBl then { s.emit (.pin .bl on) with blt := on } else s := by
  refine of_sameBuffer (fun s => ?_) fun s => ?_
  · split
    · exact s.emit_cfg (.pin .bl on)
    · rfl
  · split
    · exact State.dbRead_of_mem_eq (s.emit_cfg (.pin .bl on)) (s.emit_mem (.pin .bl on))
    · exact fun _ => rfl

theorem Overwrites.switchIcon (id : Byte) (en : Bool) : Overwrites c fun s => s.switchIcon id en := by
  cases h : c.icon[id.toNat]? with
  | none => exact Overwrites.id.congr fun s hs => by simp [State.switchIcon, hs, h]
  | some loc =>
    exact ((segWrite loc en).andThen flush).congr fun s hs => by simp [State.switchIcon, hs, h]

theorem Overwrites.switchPair (id : Byte) (en mode : Bool) :
    Overwrites c fun s => s.switchPair id en mode := by
  cases h : c.pair[id.toNat]? with
  | none => exact Overwrites.id.congr fun s hs => by simp [State.switchPair, hs, h]
  | some p =>
    exact ((pairWrite p.1 p.2 en mode).andThen flush).congr fun s hs => by
      simp [State.switchPair, hs, h]

/-- Every operation gives bits a value or leaves them, one operation at a time. -/
theorem exec_overwrites (c : WFConfig) (i : Instr) :
    ∃ f, Overwrites c f ∧ ∀ s, s.cfg = c → exec i s = .next (f s) := by
  cases i with
  | wrcmd type operand => exact ⟨_, .wrCmd type operand, fun _ _ => rfl⟩
  | flush => exact ⟨_, .flush, fun _ _ => rfl⟩
  | clear => exact ⟨_, Overwrites.clearData.andThen .flush, fun _ _ => rfl⟩
  | dispon => exact ⟨_, .switchDisplay (fun s => s.cfg.cmdLcdOn) true, fun _ _ => rfl⟩
  | dispoff => exact ⟨_, .switchDisplay (fun s => s.cfg.cmdLcdOff) false, fun _ _ => rfl⟩
  | blon => exact ⟨_, .switchBacklight true, fun _ _ => rfl⟩
  | bloff => exact ⟨_, .switchBacklight false, fun _ _ => rfl⟩
  | prtxt len c0 c1 c2 c3 c4 c5 =>
    exact ⟨_, (Overwrites.putText (textOf len #v[c0, c1, c2, c3, c4, c5])).andThen .flush, fun _ _ => rfl⟩
  | print n =>
    exact ⟨_, (Overwrites.showInteger (clamp c n.toInt)).andThen .flush, fun s hs => by subst hs; rfl⟩
  | prfix mult m =>
    exact ⟨_, (Overwrites.showScaled (clamp c m.toInt) (precOf mult)).andThen .flush,
      fun s hs => by subst hs; rfl⟩
  | prflt prec x =>
    exact ⟨_, (Overwrites.showScaled (floatValue Config.fscale.scale c prec x)
      (floatPrecision prec x)).andThen .flush, fun s hs => by subst hs; rfl⟩
  | icon id en => exact ⟨_, .switchIcon id en, fun _ _ => rfl⟩
  | icon2 id en mode => exact ⟨_, .switchPair id en mode, fun _ _ => rfl⟩
  | batt pct => exact ⟨_, (Overwrites.batteryWrite (percentOf pct)).andThen .flush, fun _ _ => rfl⟩
  | signal pct => exact ⟨_, (Overwrites.signalWrite (barsOf (percentOf pct))).andThen .flush, fun _ _ => rfl⟩
  | cmdframe t o => exact ⟨_, .wrCmd t o, fun _ _ => rfl⟩

end

theorem exec_idempotent {i : Instr} {s t u : State} (h : exec i s = .next t) (k : exec i t = .next u) :
    SameBuffer t u := by
  obtain ⟨f, hf, hexec⟩ := exec_overwrites s.cfg i
  obtain rfl : f s = t := Host.Outcome.next.inj ((hexec s rfl).symm.trans h)
  obtain rfl : f (f s) = u := Host.Outcome.next.inj ((hexec _ (hf.cfg s rfl)).symm.trans k)
  exact hf.idempotent rfl

/-- Settles O46: a second run gives the same bits the same values and leaves the others again. -/
theorem operationsAreIdempotentOnBuffer : Obligations.OperationsAreIdempotentOnBuffer := by
  unfold Obligations.OperationsAreIdempotentOnBuffer
  intro i s t u h k
  exact exec_idempotent h k

end Sys2Proof.Machine
end

section
/-! PROOFS. The segment encoder (spec/40_encoder.md). A cell shows three parts, a group in its byte H, a
group in its byte L and its single segment; the pattern it shows is a glyph as soon as the three parts are
those of the glyph's split, and writing a cell makes them so. -/

namespace Sys2Proof

/-! What well-formedness says of cells and glyphs (R8 (b), (c), R84). -/

theorem CellDesc.wf_iff (d : CellDesc) : d.wf = true ↔
    2 ≤ d.oH.val ∧ 2 ≤ d.oL.val ∧ 2 ≤ d.oS.val ∧ d.oH ≠ d.oL ∧ (d.shH = 4 ∨ d.shH = 5)
      ∧ oneBit d.mS = true ∧ (d.oS = d.oH ∨ d.oS = d.oL) := by
  simp [CellDesc.wf, and_assoc]

theorem WFConfig.cell_wf (c : WFConfig) (k : Fin 6) : c.cell[k].wf = true := by
  obtain ⟨-, hcells, -⟩ := c.toConfig.wf_iff.mp c.wf
  exact List.all_eq_true.mp hcells _ (by simp)

theorem WFConfig.cells_disjoint (c : WFConfig) {j k : Fin 6} (h : j ≠ k) :
    c.cell[j].bits.Disjoint c.cell[k].bits := by
  obtain ⟨-, hpair⟩ := List.nodup_flatMap.mp (c.family_nodup .cells)
  have hlt (j k : Fin 6) (hjk : j < k) : c.cell[j].bits.Disjoint c.cell[k].bits :=
    List.pairwise_iff_getElem.mp hpair j k (by simp) (by simp) hjk
  obtain hjk | hkj := lt_or_gt_of_ne h
  · exact hlt j k hjk
  · exact (hlt k j hkj).symm

/-- A cell's seven bits are different bits (R8 (c)). -/
theorem WFConfig.cell_nodup (c : WFConfig) (k : Fin 6) : c.cell[k].bits.Nodup :=
  (List.nodup_flatMap.mp (c.family_nodup .cells)).1 _ (by simp)

theorem exists_bit_of_oneBit {m : Byte} (h : oneBit m = true) : ∃ b, m.getLsbD b = true := by
  obtain ⟨b, hb⟩ := List.length_eq_one_iff.mp (beq_iff_eq.mp h)
  exact ⟨b, mem_maskBits.mp (hb ▸ List.mem_singleton_self b)⟩

theorem WFConfig.glyph_blank (c : WFConfig) (i : Fin 64)
    (h : supported (0x20 + i.val) = false ∨ i.val = 0) : c.glyph[i] = 0#7 := by
  obtain ⟨-, -, -, -, -, hglyphs⟩ := c.toConfig.wf_iff.mp c.wf
  exact of_decide_eq_true hglyphs i h

/-! The three parts of a cell (R80). -/

/-- The locator of a cell's single segment. -/
def CellDesc.single (d : CellDesc) : Locator := ⟨d.oS, d.mS⟩

/-- The bits of a group moved up to `k`, where a byte has room for it. -/
theorem getLsbD_group (g : BitVec 3) {k : Nat} (hk : k ≤ 5) (b : Nat) :
    (g.setWidth 8 <<< k).getLsbD b = (decide (k ≤ b) && g.getLsbD (b - k)) := by
  by_cases hb : b < 8
  · by_cases hkb : k ≤ b <;> simp [hb, hkb]
  · have hpast : g.getLsbD (b - k) = false := BitVec.getLsbD_of_ge _ _ (by omega)
    simp [hb, hpast]

theorem getLsbD_groupMask {k : Nat} (hk : k ≤ 5) (b : Nat) :
    (0x07#8 <<< k).getLsbD b = decide (k ≤ b ∧ b < k + 3) := by
  have hones : 0x07#8 = (BitVec.allOnes 3).setWidth 8 := rfl
  rw [hones, getLsbD_group _ hk, BitVec.getLsbD_allOnes, ← Bool.decide_and]
  exact decide_eq_decide.mpr (by omega)

theorem CellDesc.mem_bits {d : CellDesc} {i : Index} {b : Nat} : (i, b) ∈ d.bits ↔
    (i = d.oH ∧ d.shH ≤ b ∧ b < d.shH + 3) ∨ (i = d.oL ∧ b < 3) ∨ (i = d.oS ∧ d.mS.getLsbD b = true) := by
  have hmem : (i, b) ∈ d.bits ↔ (i = d.oH ∧ (b = d.shH + 2 ∨ b = d.shH + 1 ∨ b = d.shH))
      ∨ (i = d.oL ∧ (b = 2 ∨ b = 1 ∨ b = 0)) ∨ (i, b) ∈ d.single.bits := by
    simp only [CellDesc.bits, Locator.bits, CellDesc.single, List.mem_append, List.mem_cons,
      Prod.mk.injEq, List.not_mem_nil, or_false]
    tauto
  rw [hmem, Locator.mem_bits]
  refine or_congr (and_congr_right fun _ => ?_) (or_congr (and_congr_right fun _ => ?_) Iff.rfl) <;> omega

/-- The single segment's bit is none of the groups' (R8 (c)). -/
theorem WFConfig.single_not_in_groups (c : WFConfig) (k : Fin 6) {b : Nat}
    (h : c.cell[k].mS.getLsbD b = true) :
    ¬(c.cell[k].oS = c.cell[k].oH ∧ c.cell[k].shH ≤ b ∧ b < c.cell[k].shH + 3)
      ∧ ¬(c.cell[k].oS = c.cell[k].oL ∧ b < 3) := by
  have hdisjoint := List.disjoint_of_nodup_append (c.cell_nodup k)
  have hsingle : (c.cell[k].oS, b) ∈ (maskBits c.cell[k].mS).map fun b => (c.cell[k].oS, b) :=
    List.mem_map_of_mem (mem_maskBits.mpr h)
  refine ⟨fun ⟨hoff, hle, hlt⟩ => hdisjoint ?_ hsingle, fun ⟨hoff, hlt⟩ => hdisjoint ?_ hsingle⟩
  · have hb : b = c.cell[k].shH + 2 ∨ b = c.cell[k].shH + 1 ∨ b = c.cell[k].shH := by omega
    simp only [hoff, List.mem_cons, Prod.mk.injEq, true_and]
    tauto
  · have hb : b = 2 ∨ b = 1 ∨ b = 0 := by omega
    simp only [hoff, List.mem_cons, Prod.mk.injEq, true_and]
    tauto

end Sys2Proof

namespace Sys2Proof.Machine

/-! Glyphs (R100, R102). -/

theorem glyphOf_in_table (c : WFConfig) {ch : Byte} (h : 0x20 ≤ ch.toNat ∧ ch.toNat ≤ 0x5F) :
    glyphOf c ch = c.glyph[ch.toNat - 0x20]'(by omega) := dif_pos h

theorem glyphOf_outside_table (c : WFConfig) {ch : Byte} (h : ch.toNat < 0x20 ∨ 0x5F < ch.toNat) :
    glyphOf c ch = 0#7 := dif_neg (by omega)

/-- An unsupported character and the space are blank, in the table and outside it (R84, R100). -/
theorem glyphOf_blank (c : WFConfig) {ch : Byte} (h : supported ch.toNat = false ∨ ch = 0x20#8) :
    glyphOf c ch = 0#7 := by
  by_cases hin : 0x20 ≤ ch.toNat ∧ ch.toNat ≤ 0x5F
  · have hcode : 0x20 + (ch.toNat - 0x20) = ch.toNat := by omega
    have hspace (heq : ch = 0x20#8) : ch.toNat - 0x20 = 0 := by simp [heq]
    rw [glyphOf_in_table c hin]
    exact c.glyph_blank ⟨ch.toNat - 0x20, by omega⟩ (h.imp (fun hun => by rwa [hcode]) hspace)
  · exact glyphOf_outside_table c (by omega)

/-- Settles O25, by the two cases of the lookup and what R84 says of the table. -/
theorem unsupportedCharactersAreBlank : Obligations.UnsupportedCharactersAreBlank := by
  unfold Obligations.UnsupportedCharactersAreBlank
  intro c ch
  exact ⟨glyphOf_in_table c, glyphOf_outside_table c, glyphOf_blank c⟩

/-- The glyph with the three parts given: `G = h << 4 | s << 3 | l` (R102). -/
def joinParts (h : BitVec 3) (s : Bool) (l : BitVec 3) : Glyph :=
  (h.setWidth 7 <<< 4) ||| (if s then 0x08#7 else 0#7) ||| l.setWidth 7

theorem joinParts_split (g : Glyph) : joinParts (split g).1 (split g).2.2 (split g).2.1 = g := by
  have hsingle : (if g.getLsbD 3 then 0x08#7 else 0#7) = g &&& 0x08#7 := by
    cases h : g.getLsbD 3 <;> ext j hj <;> interval_cases j <;> simp_all
  unfold joinParts split
  rw [hsingle]
  ext j hj
  interval_cases j <;> simp

/-- Settles O26: each bit of the glyph is in exactly one part, and comes back to its place. -/
theorem splitLosesNothing : Obligations.SplitLosesNothing := by
  unfold Obligations.SplitLosesNothing
  intro g
  exact (joinParts_split g).symm

/-! What a cell shows (R37). -/

/-- The three bits of `DB[i]` from bit `k` up. -/
def State.group (s : State) (i : Index) (k : Nat) : BitVec 3 := (s.dbRead i).extractLsb' k 3

theorem State.group_eq_iff (s : State) (i : Index) (k : Nat) (g : BitVec 3) :
    s.group i k = g ↔ ∀ j < 3, s.bit i (k + j) = g.getLsbD j := by
  have hbit (j : Nat) (hj : j < 3) : (s.group i k).getLsbD j = s.bit i (k + j) := by
    simp [State.group, State.bit, hj]
  refine ⟨fun h j hj => by rw [← hbit j hj, h], fun h => BitVec.eq_of_getLsbD_eq fun j hj => ?_⟩
  rw [hbit j hj, h j hj]

theorem State.cellPattern_eq_joinParts (s : State) (k : Fin 6) : s.cellPattern k =
    joinParts (s.group s.cfg.cell[k].oH s.cfg.cell[k].shH) (s.seg s.cfg.cell[k].single)
      (s.group s.cfg.cell[k].oL 0) := by
  have hgroup (v : Byte) (n : Nat) : ((v >>> n) &&& 0x07#8).setWidth 7 = (v.extractLsb' n 3).setWidth 7 := by
    ext j hj
    by_cases h3 : j < 3
    · interval_cases j <;> simp
    · interval_cases j <;> simp_all
  have hsingle : (if s.seg s.cfg.cell[k].single then 0x08#7 else 0#7) =
      if s.dbRead s.cfg.cell[k].oS &&& s.cfg.cell[k].mS ≠ 0#8 then 0x08#7 else 0#7 :=
    if_congr decide_eq_true_iff rfl rfl
  simp only [State.cellPattern, joinParts, State.group, ← hgroup, hsingle, BitVec.ushiftRight_zero]

/-- A cell none of whose bits is written shows what it showed. -/
theorem State.cellPattern_of_sameBitsBut {s t : State} {bits : List BitPos} (h : SameBitsBut bits s t)
    (hcfg : t.cfg = s.cfg) {k : Fin 6} (hd : s.cfg.cell[k].bits.Disjoint bits) :
    t.cellPattern k = s.cellPattern k := by
  have hsame {i : Index} {b : Nat} (hb : (i, b) ∈ s.cfg.cell[k].bits) : t.bit i b = s.bit i b :=
    h i b (hd hb)
  have hH : t.group s.cfg.cell[k].oH s.cfg.cell[k].shH = s.group s.cfg.cell[k].oH s.cfg.cell[k].shH :=
    (t.group_eq_iff ..).mpr fun j hj =>
      (hsame (CellDesc.mem_bits.mpr (.inl ⟨rfl, by omega, by omega⟩))).trans ((s.group_eq_iff ..).mp rfl j hj)
  have hL : t.group s.cfg.cell[k].oL 0 = s.group s.cfg.cell[k].oL 0 :=
    (t.group_eq_iff ..).mpr fun j hj =>
      (hsame (CellDesc.mem_bits.mpr (.inr (.inl ⟨rfl, by omega⟩)))).trans ((s.group_eq_iff ..).mp rfl j hj)
  have hS : t.seg s.cfg.cell[k].single = s.seg s.cfg.cell[k].single :=
    State.seg_of_sameBitsBut h fun _ hp hb => hd (List.mem_append_right _ hp) hb
  rw [State.cellPattern_eq_joinParts, State.cellPattern_eq_joinParts, hcfg, hH, hL, hS]

theorem State.cellPattern_of_sameBuffer {s t : State} (h : SameBuffer s t) (hcfg : t.cfg = s.cfg)
    (k : Fin 6) : t.cellPattern k = s.cellPattern k :=
  State.cellPattern_of_sameBitsBut (bits := []) (fun i b _ => sameBuffer_iff_bit.mp h i b) hcfg
    (List.disjoint_nil_right _)

/-! Writing a cell (R103, R104). -/

/-- Clearing a cell clears its bits and no other. -/
theorem State.bit_clearCell (s : State) (k : Fin 6) (i : Index) (b : Nat) :
    (s.clearCell k).bit i b = (s.bit i b && !decide ((i, b) ∈ s.cfg.cell[k].bits)) := by
  obtain ⟨hH, hL, hS, -, hsh, -⟩ := s.cfg.cell[k].wf_iff.mp (s.cfg.cell_wf k)
  have hmaskH := getLsbD_groupMask (k := s.cfg.cell[k].shH) (by omega) b
  have hmaskL : (0x07#8).getLsbD b = decide (0 ≤ b ∧ b < 3) := getLsbD_groupMask (k := 0) (by omega) b
  simp only [State.clearCell, State.bit_clearBits, hmaskH, hmaskL, hH, hL, hS, CellDesc.mem_bits]
  simp [Bool.and_assoc]

/-- After a cell is written, its old bits are gone and the bits of the three parts stand in it. -/
theorem State.bit_putCell (s : State) (k : Fin 6) (ch : Byte) (i : Index) (b : Nat) :
    (s.putCell k ch).bit i b = ((s.bit i b && !decide ((i, b) ∈ s.cfg.cell[k].bits))
      || (decide (i = s.cfg.cell[k].oH ∧ s.cfg.cell[k].shH ≤ b)
            && (split (glyphOf s.cfg ch)).1.getLsbD (b - s.cfg.cell[k].shH))
      || (decide (i = s.cfg.cell[k].oL) && (split (glyphOf s.cfg ch)).2.1.getLsbD b)
      || (decide (i = s.cfg.cell[k].oS ∧ s.cfg.cell[k].mS.getLsbD b = true)
            && (split (glyphOf s.cfg ch)).2.2)) := by
  obtain ⟨hH, hL, hS, -, hsh, -⟩ := s.cfg.cell[k].wf_iff.mp (s.cfg.cell_wf k)
  have hgroupH := getLsbD_group (split (glyphOf s.cfg ch)).1 (k := s.cfg.cell[k].shH) (by omega) b
  have hgroupL : ((split (glyphOf s.cfg ch)).2.1.setWidth 8).getLsbD b =
      (split (glyphOf s.cfg ch)).2.1.getLsbD b := by
    simpa using getLsbD_group (split (glyphOf s.cfg ch)).2.1 (k := 0) (by omega) b
  cases hsingle : (split (glyphOf s.cfg ch)).2.2 <;>
    simp only [State.putCell, hsingle, reduceIte, Bool.false_eq_true, State.bit_setBits,
      State.bit_clearCell, hgroupH, hgroupL, hH, hL, hS] <;>
    simp [Bool.and_assoc]

section
variable (s : State) (k : Fin 6) (ch : Byte)

theorem State.group_putCell_high :
    (s.putCell k ch).group s.cfg.cell[k].oH s.cfg.cell[k].shH = (split (glyphOf s.cfg ch)).1 := by
  obtain ⟨-, -, -, hne, -⟩ := s.cfg.cell[k].wf_iff.mp (s.cfg.cell_wf k)
  refine (State.group_eq_iff ..).mpr fun j hj => ?_
  have hmem : (s.cfg.cell[k].oH, s.cfg.cell[k].shH + j) ∈ s.cfg.cell[k].bits :=
    CellDesc.mem_bits.mpr (.inl ⟨rfl, by omega, by omega⟩)
  have hsingle : ¬(s.cfg.cell[k].oH = s.cfg.cell[k].oS
      ∧ s.cfg.cell[k].mS.getLsbD (s.cfg.cell[k].shH + j) = true) := fun ⟨hoff, hb⟩ =>
    (s.cfg.single_not_in_groups k hb).1 ⟨hoff.symm, by omega, by omega⟩
  rw [State.bit_putCell]
  simp only [hmem, hne, hsingle]
  simp

theorem State.group_putCell_low :
    (s.putCell k ch).group s.cfg.cell[k].oL 0 = (split (glyphOf s.cfg ch)).2.1 := by
  obtain ⟨-, -, -, hne, -⟩ := s.cfg.cell[k].wf_iff.mp (s.cfg.cell_wf k)
  refine (State.group_eq_iff ..).mpr fun j hj => ?_
  have hmem : (s.cfg.cell[k].oL, 0 + j) ∈ s.cfg.cell[k].bits :=
    CellDesc.mem_bits.mpr (.inr (.inl ⟨rfl, by omega⟩))
  have hsingle : ¬(s.cfg.cell[k].oL = s.cfg.cell[k].oS ∧ s.cfg.cell[k].mS.getLsbD (0 + j) = true) :=
    fun ⟨hoff, hb⟩ => (s.cfg.single_not_in_groups k hb).2 ⟨hoff.symm, by omega⟩
  rw [State.bit_putCell]
  simp only [hmem, hne.symm, hsingle]
  simp

theorem State.seg_putCell_single :
    (s.putCell k ch).seg s.cfg.cell[k].single = (split (glyphOf s.cfg ch)).2.2 := by
  obtain ⟨-, -, -, -, -, hone, -⟩ := s.cfg.cell[k].wf_iff.mp (s.cfg.cell_wf k)
  have hbit (b : Nat) (hb : s.cfg.cell[k].mS.getLsbD b = true) :
      (s.putCell k ch).bit s.cfg.cell[k].oS b = (split (glyphOf s.cfg ch)).2.2 := by
    have hmem : (s.cfg.cell[k].oS, b) ∈ s.cfg.cell[k].bits := CellDesc.mem_bits.mpr (.inr (.inr ⟨rfl, hb⟩))
    obtain ⟨hnotH, hnotL⟩ := s.cfg.single_not_in_groups k hb
    have hH : (decide (s.cfg.cell[k].oS = s.cfg.cell[k].oH ∧ s.cfg.cell[k].shH ≤ b)
        && (split (glyphOf s.cfg ch)).1.getLsbD (b - s.cfg.cell[k].shH)) = false := by
      rw [Bool.and_eq_false_imp, decide_eq_true_eq]
      exact fun ⟨hoff, hle⟩ => BitVec.getLsbD_of_ge _ _
        (Nat.le_of_not_lt fun hlt => hnotH ⟨hoff, hle, by omega⟩)
    have hL : (decide (s.cfg.cell[k].oS = s.cfg.cell[k].oL)
        && (split (glyphOf s.cfg ch)).2.1.getLsbD b) = false := by
      rw [Bool.and_eq_false_imp, decide_eq_true_eq]
      exact fun hoff => BitVec.getLsbD_of_ge _ _ (Nat.le_of_not_lt fun hlt => hnotL ⟨hoff, hlt⟩)
    rw [State.bit_putCell, hH, hL]
    simp only [hmem, hb]
    simp
  obtain ⟨b, hb⟩ := exists_bit_of_oneBit hone
  rw [Bool.eq_iff_iff, State.seg_eq_true_iff]
  exact ⟨fun ⟨b, hm, hlit⟩ => (hbit b hm).symm.trans hlit, fun h => ⟨b, hb, (hbit b hb).trans h⟩⟩

/-- A cell that is written shows the glyph of its character, whatever it showed before (R104). -/
theorem State.cellPattern_putCell_same : (s.putCell k ch).cellPattern k = glyphOf s.cfg ch := by
  rw [State.cellPattern_eq_joinParts, State.putCell_cfg, s.group_putCell_high k ch,
    s.group_putCell_low k ch, s.seg_putCell_single k ch, joinParts_split]

/-- The other cells show what they showed, since no two cells share a bit (R8 (c)). -/
theorem State.cellPattern_putCell_other {j : Fin 6} (h : j ≠ k) :
    (s.putCell k ch).cellPattern j = s.cellPattern j :=
  State.cellPattern_of_sameBitsBut (s.putCell_sameBitsBut k ch) (s.putCell_cfg k ch)
    (s.cfg.cells_disjoint h)

end

/-- Settles O27: the three parts of the glyph are put in their places, and every write is to the cell. -/
theorem putCellShowsGlyphAndNothingElse : Obligations.PutCellShowsGlyphAndNothingElse := by
  unfold Obligations.PutCellShowsGlyphAndNothingElse
  intro s k ch
  have hshown := s.cellPattern_putCell_same k ch
  exact ⟨hshown, s.putCell_sameBitsBut k ch, fun hun => hshown.trans (glyphOf_blank s.cfg (.inl hun)),
    s.putCell_onlyBuffer k ch, (Overwrites.putCell k ch).idempotent rfl⟩

/-! Writing a text (R105, R107). -/

/-- After a run of cells is written, a cell of the run shows the glyph of its character, and so does a cell
that showed it before. -/
theorem State.cellPattern_foldl_putCell (t : Vector Byte 6) (k : Fin 6) (l : List (Fin 6)) (s : State)
    (h : k ∈ l ∨ s.cellPattern k = glyphOf s.cfg t[k]) :
    (l.foldl (fun s j => s.putCell j t[j]) s).cellPattern k = glyphOf s.cfg t[k] := by
  induction l generalizing s with
  | nil => simpa using h
  | cons j rest ih =>
    have hshown : k ∈ rest ∨ (s.putCell j t[j]).cellPattern k = glyphOf (s.putCell j t[j]).cfg t[k] := by
      rw [State.putCell_cfg]
      by_cases hjk : k = j
      · subst hjk
        exact .inr (s.cellPattern_putCell_same k t[k])
      · rw [s.cellPattern_putCell_other j t[j] hjk]
        exact h.imp_left fun hmem => (List.mem_cons.mp hmem).resolve_left hjk
    rw [List.foldl_cons, ih _ hshown, State.putCell_cfg]

theorem mem_cellIndices : ∀ k : Fin 6, k ∈ cellIndices := by decide

theorem State.cellPattern_putText (s : State) (t : Vector Byte 6) (k : Fin 6) :
    (s.putText t).cellPattern k = glyphOf s.cfg t[k] :=
  State.cellPattern_foldl_putCell t k cellIndices s (.inl (mem_cellIndices k))

/-- Settles O28: all six cells are written, and writing one leaves the others. -/
theorem putTextShowsEveryCharacter : Obligations.PutTextShowsEveryCharacter := by
  unfold Obligations.PutTextShowsEveryCharacter
  intro s t
  exact ⟨s.cellPattern_putText t, s.putText_sameBitsBut t⟩

end Sys2Proof.Machine
end

section
/-! PROOFS. What one frame leaves (spec/43_serializer.md R165, R169), and the operation PRTXT, which is one
text written and one data frame (spec/40_encoder.md R106). -/

namespace Sys2Proof.Machine

/-! One frame sent (R165, R183, R185). -/

/-- Sending a frame of one byte or more leaves its events in the trace and the levels of R183 and R185 on
the pins. -/
theorem State.wrFrame_frameSent (s : State) (V : BitVec 144) {n : Fin 19} (hn : 1 ≤ n.val) :
    FrameSent s (s.wrFrame V n) (wireBytes V n.val) := by
  obtain ⟨-, -, -, -, -, -, hframes⟩ := s.wrFrame_frame V n
  have hemits := s.wrFrame_emits V n
  obtain ⟨ws, b, hbytes⟩ : ∃ ws b, wireBytes V n.val = ws ++ [b] := by
    refine ⟨_, _, (List.dropLast_append_getLast (List.ne_nil_of_length_pos ?_)).symm⟩
    rwa [wireBytes_length]
  have hcs : (s.wrFrame V n).latch .cs = if s.cfg.hasCs then some true else s.pCs := by
    rw [hemits.latch, lastLevel_cs_frameEvents]
    split <;> rfl
  have hbl : (s.wrFrame V n).latch .bl = s.pBl := by
    rw [hemits.latch, lastLevel_eq_none (frameEvents_no_backlight s.cfg _), Option.none_or]
    rfl
  have hclk : (s.wrFrame V n).latch .clk = if s.cfg.transport = .pins then some true else s.pClk := by
    rw [hemits.latch]
    cases h : s.cfg.transport with
    | pins => rw [lastLevel_frameEvents_of_pins h _ (by decide), hbytes, lastLevel_clk_pinsOut]; rfl
    | block => rw [lastLevel_frameEvents_of_block h _ (by decide)]; rfl
  have hdata : (s.wrFrame V n).latch .data =
      if s.cfg.transport = .pins then (wireBytes V n.val).getLast?.map fun b => b.getLsbD 0
      else s.pData := by
    rw [hemits.latch]
    cases h : s.cfg.transport with
    | pins =>
      rw [lastLevel_frameEvents_of_pins h _ (by decide), hbytes, lastLevel_data_pinsOut,
        List.getLast?_concat]
      rfl
    | block => rw [lastLevel_frameEvents_of_block h _ (by decide)]; rfl
  exact ⟨hemits.out, hcs, hclk, hdata, hbl, hframes⟩

/-- A flush sends the buffer in one data frame (R166, R167). -/
theorem State.flush_frameSent (s : State) : FrameSent s s.flush s.dbBytes :=
  s.wireBytes_dataFrame ▸ s.wrFrame_frameSent s.dataFrame (n := 18) (by decide)

theorem OnlyBuffer.frameSent {s u t : State} {ws : List Byte} (h : OnlyBuffer s u)
    (k : FrameSent u t ws) : FrameSent s t ws := by
  rw [h] at k
  exact k

section
variable {s u : State} (h : OnlyBuffer s u)
include h

/-- Writes to the buffer and a flush send one data frame, which carries the buffer as they leave it
(R169). -/
theorem OnlyBuffer.flush_frameSent : FrameSent s u.flush u.flush.dbBytes := by
  rw [State.dbBytes_of_sameBuffer u.flush_sameBuffer]
  exact h.frameSent u.flush_frameSent

theorem OnlyBuffer.flush_sameLatches : SameLatches s u.flush := by
  obtain ⟨hdisp, hblt, -⟩ := h.flush_controlKept
  exact ⟨hdisp, hblt⟩

theorem OnlyBuffer.flush_samePort : SamePort s u.flush := by
  obtain ⟨hcfg, -, -, -, hbusy, hinputs, -⟩ := u.wrFrame_frame u.dataFrame 18
  have hport : SamePort u u.flush := ⟨hcfg, hbusy, hinputs⟩
  rw [h] at hport ⊢
  exact hport

end

/-- A flush leaves what a cell shows (R166). -/
theorem State.cellPattern_flush (s : State) (k : Fin 6) : s.flush.cellPattern k = s.cellPattern k :=
  State.cellPattern_of_sameBuffer s.flush_sameBuffer (s.wrFrame_frame s.dataFrame 18).1 k

theorem SameBitsBut.flush {bits : List BitPos} {s u : State} (h : SameBitsBut bits s u) :
    SameBitsBut bits s u.flush :=
  h.trans fun i b _ => sameBuffer_iff_bit.mp u.flush_sameBuffer i b

/-! PRTXT (R106). -/

/-- The text shows the characters that are given and blanks after them. -/
theorem glyphOf_textOf (c : WFConfig) (len : BitVec 3) (cs : Vector Byte 6) (k : Fin 6) :
    glyphOf c (textOf len cs)[k] = if k.val < min len.toNat 6 then glyphOf c cs[k] else 0#7 := by
  have hchar : (textOf len cs)[k] = if k.val < min len.toNat 6 then cs[k] else 0x20#8 := by
    simp [textOf]
  rw [hchar]
  split
  · rfl
  · exact glyphOf_blank c (.inr rfl)

/-- Settles O29: a text is written and flushed, and the same again finds every bit as it would make it. -/
theorem prtxtShowsTextAndFlushes : Obligations.PrtxtShowsTextAndFlushes := by
  unfold Obligations.PrtxtShowsTextAndFlushes
  intro len c0 c1 c2 c3 c4 c5 s
  have hwrites (s : State) := s.putText_onlyBuffer (textOf len #v[c0, c1, c2, c3, c4, c5])
  have hagain (s : State) := ((Overwrites.putText (c := s.cfg)
    (textOf len #v[c0, c1, c2, c3, c4, c5])).andThen .flush).idempotent rfl
  have hcells (k : Fin 6) := (s.putText (textOf len #v[c0, c1, c2, c3, c4, c5])).cellPattern_flush k
  simp only [State.cellPattern_putText, glyphOf_textOf] at hcells
  refine ⟨_, rfl, hcells, (s.putText_sameBitsBut _).flush, (hwrites s).flush_frameSent,
    (hwrites s).flush_sameLatches, (hwrites s).flush_samePort, _, rfl, hagain s, ?_⟩
  rw [← State.dbBytes_of_sameBuffer (hagain s)]
  exact (hwrites _).flush_frameSent

end Sys2Proof.Machine
end

section
/-! PROOFS. The segment map (spec/41_segment_map.md). One write gives one segment its value and leaves
every other bit; segments that share no bit can be written one after another, and each keeps the value it
was given. So each operation shows what it wrote, and, as the families of segments share no bit (R8 (c)),
none disturbs another family's. -/

namespace Sys2Proof

/-! The locators and bits of the families (R8 (a), (c)). -/

theorem Config.locatorsWf_iff (c : Config) : c.locatorsWf = true ↔
    (∀ l ∈ c.dploc.toList, l.wf = true) ∧ (∀ l ∈ c.icon, l.wf = true)
      ∧ (∀ p ∈ c.pair, p.1.wf = true ∧ p.2.wf = true) ∧ (∀ g ∈ c.bat, g.1.wf = true)
      ∧ ∀ l ∈ c.sigloc.toList, l.wf = true := by
  simp only [Config.locatorsWf, Bool.and_eq_true, List.all_eq_true, and_assoc]

theorem WFConfig.locatorsWf (c : WFConfig) : c.toConfig.locatorsWf = true :=
  (c.toConfig.wf_iff.mp c.wf).1

theorem WFConfig.locator_wf_of_mem_icon (c : WFConfig) {l : Locator} (h : l ∈ c.icon) : l.wf = true := by
  obtain ⟨-, hicons, -⟩ := c.toConfig.locatorsWf_iff.mp c.locatorsWf
  exact hicons l h

theorem WFConfig.locator_wf_of_mem_bat (c : WFConfig) {g : Locator × Nat} (h : g ∈ c.bat) :
    g.1.wf = true := by
  obtain ⟨-, -, -, hbattery, -⟩ := c.toConfig.locatorsWf_iff.mp c.locatorsWf
  exact hbattery g h

theorem WFConfig.locator_wf_of_mem_bars (c : WFConfig) {l : Locator} (h : l ∈ c.sigloc.toList) :
    l.wf = true := by
  obtain ⟨-, -, -, -, hbars⟩ := c.toConfig.locatorsWf_iff.mp c.locatorsWf
  exact hbars l h

/-- The two members of a pair share no bit. -/
theorem WFConfig.pair_members_disjoint (c : WFConfig) {p : Locator × Locator} (h : p ∈ c.pair) :
    p.1.bits.Disjoint p.2.bits :=
  List.disjoint_of_nodup_append ((List.nodup_flatMap.mp (c.family_nodup .pairs)).1 p h)

/-- A family shares no bit with a list of others. -/
theorem WFConfig.family_disjoint_flatMap (c : WFConfig) {f : Family} {fs : List Family} (h : f ∉ fs) :
    (f.bits c.toConfig).Disjoint (fs.flatMap (Family.bits c.toConfig)) := by
  intro q hq hwritten
  obtain ⟨g, hg, hqg⟩ := List.mem_flatMap.mp hwritten
  have hfg : f ≠ g := fun heq => h (heq ▸ hg)
  exact c.families_disjoint hfg hq hqg

theorem Config.icon_bits_subset {c : Config} {loc : Locator} (h : loc ∈ c.icon) :
    loc.bits ⊆ Family.bits c .icons :=
  fun _ hb => List.mem_flatMap.mpr ⟨loc, h, hb⟩

theorem Config.battery_bits_subset {c : Config} {g : Locator × Nat} (h : g ∈ c.bat) :
    g.1.bits ⊆ Family.bits c .battery :=
  fun _ hb => List.mem_flatMap.mpr ⟨g, h, hb⟩

theorem Config.bar_bits_subset {c : Config} {loc : Locator} (h : loc ∈ c.sigloc.toList) :
    loc.bits ⊆ Family.bits c .bars :=
  fun _ hb => List.mem_flatMap.mpr ⟨loc, h, hb⟩

theorem Config.sigloc_toList (c : Config) : c.sigloc.toList = [c.sigloc[0], c.sigloc[1], c.sigloc[2]] := by
  apply List.ext_getElem
  · simp
  · intro i hi _
    rw [Vector.length_toList] at hi
    interval_cases i <;> rfl

end Sys2Proof

namespace Sys2Proof.Machine

/-! Segments written (R120). -/

/-- A segment shows the value it was written. -/
theorem State.seg_segWrite_same (s : State) {loc : Locator} (h : loc.wf = true) (v : Bool) :
    (s.segWrite loc v).seg loc = v := by
  obtain ⟨hoff, hone⟩ := loc.wf_iff.mp h
  cases v with
  | false => exact s.seg_segWrite_false_same hoff
  | true =>
    obtain ⟨b, hb⟩ := exists_bit_of_oneBit hone
    refine (State.seg_eq_true_iff ..).mpr ⟨b, hb, ?_⟩
    simp [State.segWrite, State.bit_setBits, hoff, hb]

/-- A segment that shares no bit with the one written shows what it showed. -/
theorem State.seg_segWrite_other (s : State) {loc other : Locator} (h : other.bits.Disjoint loc.bits)
    (v : Bool) : (s.segWrite loc v).seg other = s.seg other :=
  State.seg_of_sameBitsBut (s.segWrite_sameBitsBut loc v) h

/-- Settles O24: the write is a set or a clear of the locator's one bit. -/
theorem segWriteChangesOneBit : Obligations.SegWriteChangesOneBit := by
  unfold Obligations.SegWriteChangesOneBit
  intro s loc v h
  exact ⟨s.seg_segWrite_same h v, s.segWrite_sameBitsBut loc v, s.segWrite_onlyBuffer loc v,
    (Overwrites.segWrite loc v).idempotent rfl⟩

/-- Of two segments without a common bit, written one after the other, each shows its value. -/
theorem State.seg_segWrite_two (s : State) {loc other : Locator} (hloc : loc.wf = true)
    (hother : other.wf = true) (hd : loc.bits.Disjoint other.bits) (v w : Bool) :
    ((s.segWrite loc v).segWrite other w).seg loc = v
      ∧ ((s.segWrite loc v).segWrite other w).seg other = w :=
  ⟨(State.seg_segWrite_other _ hd w).trans (s.seg_segWrite_same hloc v),
    State.seg_segWrite_same _ hother w⟩

/-- Of segments without a common bit, all written in a run, each shows its value: the writes after its own
leave it. -/
theorem State.seg_foldl_segWrite {α : Type} (loc : α → Locator) (v : α → Bool) (l : List α) (s : State)
    (hwf : ∀ a ∈ l, (loc a).wf = true) (hnodup : (l.flatMap fun a => (loc a).bits).Nodup)
    {a : α} (ha : a ∈ l) : (l.foldl (fun s a => s.segWrite (loc a) (v a)) s).seg (loc a) = v a := by
  induction l generalizing s with
  | nil => cases ha
  | cons b rest ih =>
    rw [List.flatMap_cons] at hnodup
    obtain rfl | hrest := List.mem_cons.mp ha
    · exact (State.seg_of_sameBitsBut (State.foldl_segWrite_sameBitsBut loc v rest _)
        (List.disjoint_of_nodup_append hnodup)).trans (s.seg_segWrite_same (hwf a ha) (v a))
    · exact ih _ (fun x hx => hwf x (List.mem_cons_of_mem _ hx)) hnodup.of_append_right hrest

theorem State.seg_flush (s : State) (loc : Locator) : s.flush.seg loc = s.seg loc :=
  State.seg_of_sameBuffer s.flush_sameBuffer loc

/-- What every operation that writes the buffer and flushes it leaves (R169). -/
theorem OnlyBuffer.flush_leaves {s u : State} (h : OnlyBuffer s u) :
    FrameSent s u.flush u.flush.dbBytes ∧ SameLatches s u.flush ∧ SamePort s u.flush :=
  ⟨h.flush_frameSent, h.flush_sameLatches, h.flush_samePort⟩

/-! ICON (R122). -/

theorem State.switchIcon_of_lt (s : State) {id : Byte} (h : id.toNat < s.cfg.icon.length) (en : Bool) :
    s.switchIcon id en = (s.segWrite s.cfg.icon[id.toNat] en).flush := by
  simp [State.switchIcon, h]

theorem State.switchIcon_of_le (s : State) {id : Byte} (h : s.cfg.icon.length ≤ id.toNat) (en : Bool) :
    s.switchIcon id en = s := by
  simp [State.switchIcon, h]

theorem State.switchIcon_leaves (s : State) {id : Byte} (h : id.toNat < s.cfg.icon.length) (en : Bool) :
    FrameSent s (s.switchIcon id en) (s.switchIcon id en).dbBytes ∧ SameLatches s (s.switchIcon id en)
      ∧ SamePort s (s.switchIcon id en) := by
  rw [s.switchIcon_of_lt h en]
  exact (s.segWrite_onlyBuffer _ en).flush_leaves

/-- Settles O39: one segment is written and flushed, and the second frame carries the same buffer. -/
theorem iconSwitchesItsSegment : Obligations.IconSwitchesItsSegment := by
  unfold Obligations.IconSwitchesItsSegment
  intro id en s
  refine ⟨fun h => ?_, fun h => congrArg Host.Outcome.next (s.switchIcon_of_le h en)⟩
  have hwf : s.cfg.icon[id.toNat].wf = true := s.cfg.locator_wf_of_mem_icon (List.getElem_mem h)
  have hsame : SameBuffer (s.switchIcon id en) ((s.switchIcon id en).switchIcon id en) :=
    exec_idempotent (i := .icon id en) rfl rfl
  obtain ⟨hsent, hlatches, hport⟩ := s.switchIcon_leaves h en
  have hagain : id.toNat < (s.switchIcon id en).cfg.icon.length := by
    obtain ⟨hcfg, -⟩ := hport
    rwa [hcfg]
  obtain ⟨hsentAgain, -⟩ := (s.switchIcon id en).switchIcon_leaves hagain en
  rw [State.dbBytes_of_sameBuffer hsame] at hsentAgain
  refine ⟨_, rfl, ?_, ?_, hsent, hlatches, hport, _, rfl, hsame, hsentAgain⟩
  · rw [s.switchIcon_of_lt h, State.seg_flush, State.seg_segWrite_same _ hwf]
  · rw [s.switchIcon_of_lt h]
    exact (s.segWrite_sameBitsBut _ en).flush

/-! ICON2 (R123). -/

/-- After the two writes of ICON2 the member that is asked for is lit, and no other. -/
theorem State.seg_pairWrite (s : State) {locA locB : Locator} (hA : locA.wf = true)
    (hB : locB.wf = true) (hd : locA.bits.Disjoint locB.bits) (en mode : Bool) :
    (s.pairWrite locA locB en mode).seg locA = (en && !mode)
      ∧ (s.pairWrite locA locB en mode).seg locB = (en && mode) :=
  match en, mode with
  | true, false => s.seg_segWrite_two hA hB hd true false
  | true, true => (s.seg_segWrite_two hB hA hd.symm true false).symm
  | false, _ => s.seg_segWrite_two hA hB hd false false

theorem State.switchPair_of_lt (s : State) {id : Byte} (h : id.toNat < s.cfg.pair.length)
    (en mode : Bool) : s.switchPair id en mode =
      (s.pairWrite s.cfg.pair[id.toNat].1 s.cfg.pair[id.toNat].2 en mode).flush := by
  simp [State.switchPair, h]

theorem State.switchPair_of_le (s : State) {id : Byte} (h : s.cfg.pair.length ≤ id.toNat)
    (en mode : Bool) : s.switchPair id en mode = s := by
  simp [State.switchPair, h]

/-- Settles O40: both members are written before the one flush, and they share no bit. -/
theorem icon2SwitchesItsPair : Obligations.Icon2SwitchesItsPair := by
  unfold Obligations.Icon2SwitchesItsPair
  intro id en mode s
  refine ⟨fun h => ?_, fun h => congrArg Host.Outcome.next (s.switchPair_of_le h en mode), rfl⟩
  have hmem : s.cfg.pair[id.toNat] ∈ s.cfg.pair := List.getElem_mem h
  obtain ⟨hwfA, hwfB⟩ := s.cfg.locators_wf_of_mem_pair hmem
  obtain ⟨hA, hB⟩ := s.seg_pairWrite hwfA hwfB (s.cfg.pair_members_disjoint hmem) en mode
  have hexec : exec (.icon2 id en mode) s = .next (s.switchPair id en mode) := rfl
  rw [s.switchPair_of_lt h] at hexec
  obtain ⟨hsent, hlatches, hport⟩ := (s.pairWrite_onlyBuffer s.cfg.pair[id.toNat].1
    s.cfg.pair[id.toNat].2 en mode).flush_leaves
  exact ⟨_, hexec, (State.seg_flush ..).trans hA, (State.seg_flush ..).trans hB,
    (s.pairWrite_sameBitsBut _ _ en mode).flush, hsent, hlatches, hport, _, rfl,
    exec_idempotent hexec rfl⟩

/-! BATT and SIGNAL (R124, R125). -/

theorem State.seg_batteryWrite (s : State) (p : Nat) {g : Locator × Nat} (h : g ∈ s.cfg.bat) :
    (s.batteryWrite p).seg g.1 = decide (p > g.2) :=
  State.seg_foldl_segWrite Prod.fst (fun g => decide (p > g.2)) s.cfg.bat s
    (fun _ hg => s.cfg.locator_wf_of_mem_bat hg) (s.cfg.family_nodup .battery) h

/-- Settles O41: every segment is written, and no later write touches it. -/
theorem battLightsSegmentsAboveThreshold : Obligations.BattLightsSegmentsAboveThreshold := by
  unfold Obligations.BattLightsSegmentsAboveThreshold
  intro pct s
  exact ⟨_, rfl, fun g hg => (State.seg_flush ..).trans (s.seg_batteryWrite _ hg),
    (s.batteryWrite_sameBitsBut _).flush, (s.batteryWrite_onlyBuffer _).flush_leaves⟩

/-- The bars with the number of bars above which each is lit. -/
def barThresholds (c : Config) : List (Locator × Nat) :=
  [(c.sigloc[0], 0), (c.sigloc[1], 1), (c.sigloc[2], 2)]

/-- The writes of SIGNAL are those of a gauge whose thresholds are numbers of bars. -/
theorem State.signalWrite_eq_foldl (s : State) (bars : Nat) : s.signalWrite bars =
    (barThresholds s.cfg.toConfig).foldl (fun s g => s.segWrite g.1 (decide (bars > g.2))) s := rfl

theorem State.seg_signalWrite (s : State) (bars : Nat) {g : Locator × Nat}
    (h : g ∈ barThresholds s.cfg.toConfig) : (s.signalWrite bars).seg g.1 = decide (bars > g.2) := by
  have hlocs : (barThresholds s.cfg.toConfig).map Prod.fst = s.cfg.sigloc.toList :=
    (Config.sigloc_toList _).symm
  have hnodup := s.cfg.family_nodup .bars
  rw [Family.bits, Config.sigBits, ← hlocs, List.flatMap_map] at hnodup
  rw [s.signalWrite_eq_foldl]
  exact State.seg_foldl_segWrite Prod.fst (fun g => decide (bars > g.2)) _ s
    (fun a ha => s.cfg.locator_wf_of_mem_bars (hlocs ▸ List.mem_map_of_mem ha)) hnodup h

/-- The percentages above which there are more than 0, 1 and 2 bars (R125). -/
theorem barsOf_gt_iff (p : Nat) :
    (barsOf p > 0 ↔ p > 0) ∧ (barsOf p > 1 ↔ p > 30) ∧ (barsOf p > 2 ↔ p > 60) := by
  unfold barsOf
  split_ifs <;> omega

/-- Settles O42: the three bars are written, each by the percentage at which its number is reached. -/
theorem signalLightsBars : Obligations.SignalLightsBars := by
  unfold Obligations.SignalLightsBars
  intro pct s
  have hbars : ∀ g ∈ barThresholds s.cfg.toConfig,
      (s.signalWrite (barsOf (percentOf pct))).flush.seg g.1 = decide (barsOf (percentOf pct) > g.2) :=
    fun g hg => (State.seg_flush _ g.1).trans (s.seg_signalWrite _ hg)
  obtain ⟨hfirst, hsecond, hthird⟩ := barsOf_gt_iff (percentOf pct)
  simp only [barThresholds, List.forall_mem_cons, hfirst, hsecond, hthird] at hbars
  obtain ⟨hlitFirst, hlitSecond, hlitThird, -⟩ := hbars
  exact ⟨_, rfl, hlitFirst, hlitSecond, hlitThird, (s.signalWrite_sameBitsBut _).flush,
    (s.signalWrite_onlyBuffer _).flush_leaves⟩

/-! Both gauges are monotone (R129 (e)). -/

/-- Settles O44: what a gauge lights at a percentage it lights at every higher one. -/
theorem gaugesAreMonotone : Obligations.GaugesAreMonotone := by
  unfold Obligations.GaugesAreMonotone
  intro p q s hpq
  have hlit (n : Nat) : decide (min p.toNat 100 > n) = true → decide (min q.toNat 100 > n) = true := by
    simp only [decide_eq_true_eq]
    omega
  refine ⟨fun t u ht hu => ?_, fun t u ht hu => ?_⟩
  · obtain ⟨t', ht', hsegT, -, -, -, hcfgT, -⟩ := battLightsSegmentsAboveThreshold p s
    obtain ⟨u', hu', hsegU, -, -, -, hcfgU, -⟩ := battLightsSegmentsAboveThreshold q s
    obtain rfl : t' = t := Host.Outcome.next.inj (ht'.symm.trans ht)
    obtain rfl : u' = u := Host.Outcome.next.inj (hu'.symm.trans hu)
    rw [State.litBattery, State.litBattery, hcfgT, hcfgU]
    refine List.countP_mono_left fun g hg => ?_
    rw [hsegT g hg, hsegU g hg]
    exact hlit g.2
  · obtain ⟨t', ht', hfirstT, hsecondT, hthirdT, -, -, -, hcfgT, -⟩ := signalLightsBars p s
    obtain ⟨u', hu', hfirstU, hsecondU, hthirdU, -, -, -, hcfgU, -⟩ := signalLightsBars q s
    obtain rfl : t' = t := Host.Outcome.next.inj (ht'.symm.trans ht)
    obtain rfl : u' = u := Host.Outcome.next.inj (hu'.symm.trans hu)
    rw [State.litBars, State.litBars, hcfgT, hcfgU, Config.sigloc_toList]
    refine List.countP_mono_left ?_
    simp only [List.forall_mem_cons, hfirstT, hsecondT, hthirdT, hfirstU, hsecondU, hthirdU]
    exact ⟨hlit 0, hlit 30, hlit 60, by simp⟩

/-! CLEAR (R127, R128). -/

/-- A cell is dark when the data region is 0. -/
theorem DataZero.cellPattern_eq {s : State} (h : DataZero s) (k : Fin 6) : s.cellPattern k = 0#7 := by
  obtain ⟨hH, hL, hS, -⟩ := s.cfg.cell[k].wf_iff.mp (s.cfg.cell_wf k)
  simp only [State.cellPattern, h _ hH, h _ hL, h _ hS]
  simp

/-- Settles O43: every data byte is written 0, and the header is not a data byte. -/
theorem clearZeroesDataRegion : Obligations.ClearZeroesDataRegion := by
  unfold Obligations.ClearZeroesDataRegion
  intro s
  have hzero : DataZero s.clearData.flush := s.clearData_dataZero.of_sameBuffer (State.flush_sameBuffer _)
  obtain ⟨hsent, hlatches, hport⟩ := s.clearData_onlyBuffer.flush_leaves
  have hcfg := hport.1
  refine ⟨_, rfl, hzero, ?_, ?_, fun loc hloc => ?_, hzero.cellPattern_eq, hsent, hlatches, hport⟩
  · rw [State.dbRead_zero, State.dbRead_zero, hcfg]
  · rw [State.dbRead_one, State.dbRead_one, hcfg]
  · exact State.seg_of_data_zero hzero (loc.wf_iff.mp hloc).1

/-! The families do not disturb one another (R129 (d), R152 (c)). -/

theorem State.switchBacklight_sameBuffer (s : State) (on : Bool) :
    SameBuffer s (if s.cfg.hasBl then { s.emit (.pin .bl on) with blt := on } else s) := by
  split
  · exact State.dbRead_of_mem_eq (s.emit_cfg (.pin .bl on)) (s.emit_mem (.pin .bl on))
  · exact fun _ => rfl

/-- The families an operation writes. CLEAR, which writes all data bytes, has none of its own. -/
def writtenFamilies : Instr → List Family
  | .prtxt .. => [.cells]
  | .print _ | .prfix .. | .prflt .. => [.cells, .points]
  | .icon .. => [.icons]
  | .icon2 .. => [.pairs]
  | .batt _ => [.battery]
  | .signal _ => [.bars]
  | .wrcmd .. | .flush | .clear | .dispon | .dispoff | .blon | .bloff | .cmdframe .. => []

theorem State.switchIcon_sameBitsBut (s : State) (id : Byte) (en : Bool) :
    SameBitsBut ([Family.icons].flatMap (Family.bits s.cfg.toConfig)) s (s.switchIcon id en) := by
  unfold State.switchIcon
  split
  · exact (BufferWrite.icon (List.mem_of_getElem? ‹_›) en).sameBitsBut.flush
  · exact .refl _ s

theorem State.switchPair_sameBitsBut (s : State) (id : Byte) (en mode : Bool) :
    SameBitsBut ([Family.pairs].flatMap (Family.bits s.cfg.toConfig)) s (s.switchPair id en mode) := by
  unfold State.switchPair
  split
  · exact (BufferWrite.pair (List.mem_of_getElem? ‹_›) en mode).sameBitsBut.flush
  · exact .refl _ s

/-- An operation but CLEAR touches the bits of its own families only, one operation at a time. -/
theorem exec_completes_sameBitsBut {i : Instr} (hi : i ≠ .clear) (s : State) :
    ∃ t, exec i s = .next t
      ∧ SameBitsBut ((writtenFamilies i).flatMap (Family.bits s.cfg.toConfig)) s t := by
  have hkept {t : State} (h : SameBuffer s t) : SameBitsBut [] s t := fun j b _ =>
    sameBuffer_iff_bit.mp h j b
  cases i with
  | clear => exact absurd rfl hi
  | wrcmd type operand => exact ⟨_, rfl, hkept (s.wrFrame_sameBuffer _ 2)⟩
  | flush => exact ⟨_, rfl, hkept s.flush_sameBuffer⟩
  | dispon => exact ⟨_, rfl, hkept (s.wrFrame_sameBuffer _ 2)⟩
  | dispoff => exact ⟨_, rfl, hkept (s.wrFrame_sameBuffer _ 2)⟩
  | blon => exact ⟨_, rfl, hkept (s.switchBacklight_sameBuffer true)⟩
  | bloff => exact ⟨_, rfl, hkept (s.switchBacklight_sameBuffer false)⟩
  | prtxt len c0 c1 c2 c3 c4 c5 => exact ⟨_, rfl, (BufferWrite.text _).sameBitsBut.flush⟩
  | print n => exact ⟨_, rfl, (BufferWrite.integer _).sameBitsBut.flush⟩
  | prfix mult m => exact ⟨_, rfl, (BufferWrite.scaled _ _).sameBitsBut.flush⟩
  | prflt prec x => exact ⟨_, rfl, (BufferWrite.scaled _ _).sameBitsBut.flush⟩
  | icon id en => exact ⟨_, rfl, s.switchIcon_sameBitsBut id en⟩
  | icon2 id en mode => exact ⟨_, rfl, s.switchPair_sameBitsBut id en mode⟩
  | batt pct => exact ⟨_, rfl, (BufferWrite.battery _).sameBitsBut.flush⟩
  | signal pct => exact ⟨_, rfl, (BufferWrite.bars _).sameBitsBut.flush⟩
  | cmdframe t o => exact ⟨_, rfl, hkept (s.wrFrame_sameBuffer _ 2)⟩

section
variable {i : Instr} {s t : State} (hi : i ≠ .clear) (h : exec i s = .next t)
include hi h

theorem exec_sameBitsBut :
    SameBitsBut ((writtenFamilies i).flatMap (Family.bits s.cfg.toConfig)) s t := by
  obtain ⟨u, hu, hkept⟩ := exec_completes_sameBitsBut hi s
  rw [hu] at h
  cases h
  exact hkept

/-- An operation but CLEAR leaves the segments of every family that it does not write. -/
theorem exec_seg_eq {f : Family} (hf : f ∉ writtenFamilies i) {loc : Locator}
    (hloc : loc.bits ⊆ f.bits s.cfg.toConfig) : t.seg loc = s.seg loc :=
  State.seg_of_sameBitsBut (exec_sameBitsBut hi h)
    (List.disjoint_of_subset_left hloc (s.cfg.family_disjoint_flatMap hf))

/-- An operation that writes neither cells nor decimal points leaves what both show. -/
theorem exec_keeps_cells_and_points (hcells : .cells ∉ writtenFamilies i)
    (hpoints : .points ∉ writtenFamilies i) :
    (∀ k : Fin 6, t.cellPattern k = s.cellPattern k)
      ∧ ∀ loc ∈ s.cfg.dploc.toList, t.seg loc = s.seg loc := by
  obtain ⟨hcfg, -⟩ := (exec_effect h).traceExtends
  refine ⟨fun k => State.cellPattern_of_sameBitsBut (exec_sameBitsBut hi h) hcfg ?_, fun loc hloc =>
    exec_seg_eq hi h hpoints (Config.point_bits_subset hloc)⟩
  exact List.disjoint_of_subset_left (s.cfg.cell_bits_subset k) (s.cfg.family_disjoint_flatMap hcells)

/-- An operation that writes no other families than cells and decimal points leaves every icon and both
gauges. -/
theorem exec_keeps_icons_and_gauges (hw : writtenFamilies i ⊆ [.cells, .points]) :
    (∀ loc ∈ s.cfg.icon ++ s.cfg.sigloc.toList, t.seg loc = s.seg loc)
      ∧ (∀ g ∈ s.cfg.bat, t.seg g.1 = s.seg g.1)
      ∧ ∀ p ∈ s.cfg.pair, t.seg p.1 = s.seg p.1 ∧ t.seg p.2 = s.seg p.2 := by
  have hother {f : Family} (hf : f ∉ [.cells, .points]) : f ∉ writtenFamilies i := fun hmem => hf (hw hmem)
  refine ⟨fun loc hloc => ?_, fun g hg => ?_, fun p hp => ?_⟩
  · obtain hicon | hbar := List.mem_append.mp hloc
    · exact exec_seg_eq hi h (hother (by simp)) (Config.icon_bits_subset hicon)
    · exact exec_seg_eq hi h (hother (by simp)) (Config.bar_bits_subset hbar)
  · exact exec_seg_eq hi h (hother (by simp)) (Config.battery_bits_subset hg)
  · obtain ⟨hA, hB⟩ := Config.pair_bits_subset hp
    have hpairs : .pairs ∉ writtenFamilies i := hother (by simp)
    exact ⟨exec_seg_eq hi h hpairs hA, exec_seg_eq hi h hpairs hB⟩

end

/-- Settles O45: an operation writes its own families, and no two families share a bit. -/
theorem familiesDoNotDisturbEachOther : Obligations.FamiliesDoNotDisturbEachOther := by
  unfold Obligations.FamiliesDoNotDisturbEachOther
  intro i s t h
  cases i with
  | icon id en | icon2 id en mode | batt pct | signal pct =>
    exact exec_keeps_cells_and_points (by simp) h (by simp [writtenFamilies]) (by simp [writtenFamilies])
  | prtxt len c0 c1 c2 c3 c4 c5 =>
    obtain ⟨hiconsBars, hgauge, hpairs⟩ := exec_keeps_icons_and_gauges (by simp) h
      (by simp [writtenFamilies])
    refine ⟨fun loc hloc => ?_, hgauge, hpairs⟩
    simp only [List.mem_append, or_assoc] at hloc
    obtain hicon | hpoint | hbar := hloc
    · exact hiconsBars loc (List.mem_append_left _ hicon)
    · exact exec_seg_eq (by simp) h (f := .points) (by simp [writtenFamilies])
        (Config.point_bits_subset hpoint)
    · exact hiconsBars loc (List.mem_append_right _ hbar)
  | print n | prfix mult m | prflt prec x =>
    exact exec_keeps_icons_and_gauges (by simp) h (by simp [writtenFamilies])
  | wrcmd | flush | clear | dispon | dispoff | blon | bloff | cmdframe => trivial

end Sys2Proof.Machine
end

section
/-! PROOFS. Integers as the six cells show them (spec/42_numeric_frontend.md R141, R143). The formatter
writes the digits of the magnitude in base 10, most significant first, and a reader of digits computes the
same positional value back; six characters, with a place lost to a minus sign, show no other integers than
those of the displayable range. -/

namespace Sys2Proof

/-! What well-formedness says of the bounds (R8 (d)). -/

theorem Config.clampWf_iff (c : Config) : c.clampWf = true ↔
    c.clampMin < 0 ∧ 0 < c.clampMax ∧ -2147483648 ≤ c.clampMin ∧ c.clampMax ≤ 2147483647 := by
  simp [Config.clampWf, and_assoc]

theorem WFConfig.clamp_bounds (c : WFConfig) :
    c.clampMin < 0 ∧ 0 < c.clampMax ∧ -2147483648 ≤ c.clampMin ∧ c.clampMax ≤ 2147483647 := by
  obtain ⟨-, -, -, hclamp, -⟩ := c.toConfig.wf_iff.mp c.wf
  exact c.toConfig.clampWf_iff.mp hclamp

end Sys2Proof

namespace Sys2Proof.Machine

/-! The clamp (R141). -/

/-- Settles O30: the lower bound is below the upper one, so the three cases exclude each other. -/
theorem clampReturnsNearestBound : Obligations.ClampReturnsNearestBound := by
  unfold Obligations.ClampReturnsNearestBound
  intro c v
  obtain ⟨hlow, hhigh, -⟩ := c.clamp_bounds
  unfold clamp clampi
  split_ifs <;> omega

theorem clamp_of_mem (c : WFConfig) {v : Int} (hlow : c.clampMin ≤ v) (hhigh : v ≤ c.clampMax) :
    clamp c v = v := by
  obtain ⟨-, -, hinside, -⟩ := clampReturnsNearestBound c v
  exact hinside hlow hhigh

/-! The digits of a number (R143). -/

/-- The character of a decimal digit. -/
def digitChar (d : Nat) : Byte := BitVec.ofNat 8 (0x30 + d)

theorem digitChar_toNat {d : Nat} (h : d < 10) : (digitChar d).toNat = 0x30 + d := by
  rw [digitChar, BitVec.toNat_ofNat]
  omega

theorem digitChar_ne {d : Nat} (h : d < 10) {c : Byte} (hc : c.toNat ≠ 0x30 + d) : digitChar d ≠ c :=
  fun heq => hc (heq ▸ digitChar_toNat h)

theorem digitsOnto_eq (fuel n : Nat) (acc : List Byte) (hn : 0 < n) (hfuel : n ≤ fuel) :
    digitsOnto fuel n acc = ((Nat.digits 10 n).map digitChar).reverse ++ acc := by
  induction fuel generalizing n acc with
  | zero => omega
  | succ fuel ih =>
    rw [Nat.digits_def' (by decide) hn, digitsOnto]
    by_cases hlast : n / 10 = 0
    · simp [hlast, digitChar]
    · simp [hlast, digitChar, ih (n / 10) _ (by omega) (by omega)]

/-- The digit characters of a positive number are those of its base 10 representation. -/
theorem digits_eq {n : Nat} (hn : 0 < n) : digits n = ((Nat.digits 10 n).map digitChar).reverse := by
  rw [digits, digitsOnto_eq (n + 1) n [] hn (by omega), List.append_nil]

theorem digits_length_le {n k : Nat} (hk : 0 < k) (h : n < 10 ^ k) : (digits n).length ≤ k := by
  obtain rfl | hn := Nat.eq_zero_or_pos n
  · exact hk
  · rw [digits_eq hn, List.length_reverse, List.length_map]
    exact (Nat.digits_length_le_iff (by decide) n).mpr h

/-- The first digit of a positive number is a digit, and not 0. -/
theorem digits_eq_cons {n : Nat} (hn : 0 < n) :
    ∃ d rest, 0 < d ∧ d < 10 ∧ digits n = digitChar d :: rest := by
  have hne : Nat.digits 10 n ≠ [] := Nat.digits_ne_nil_iff_ne_zero.mpr hn.ne'
  refine ⟨(Nat.digits 10 n).getLast hne, ((Nat.digits 10 n).dropLast.map digitChar).reverse,
    Nat.pos_of_ne_zero (Nat.getLast_digit_ne_zero 10 hn.ne'),
    Nat.digits_lt_base (by decide) (List.getLast_mem hne), ?_⟩
  rw [digits_eq hn]
  conv_lhs => rw [← List.dropLast_append_getLast hne]
  simp

theorem digits_head (n : Nat) : ∃ d rest, d < 10 ∧ digits n = digitChar d :: rest := by
  obtain rfl | hn := Nat.eq_zero_or_pos n
  · exact ⟨0, [], by decide, rfl⟩
  · obtain ⟨d, rest, -, hd, heq⟩ := digits_eq_cons hn
    exact ⟨d, rest, hd, heq⟩

/-! Reading digits back. -/

theorem readDigits_append (l m : List Byte) (acc : Nat) :
    readDigits (l ++ m) acc = (readDigits l acc).bind (readDigits m) := by
  induction l generalizing acc with
  | nil => rfl
  | cons c rest ih =>
    simp only [List.cons_append, readDigits]
    split
    · exact ih _
    · rfl

theorem readDigits_digitChar {d : Nat} (h : d < 10) (acc : Nat) :
    readDigits [digitChar d] acc = some (10 * acc + d) := by
  simp only [readDigits, digitChar_toNat h]
  rw [if_pos (by omega), Nat.add_sub_cancel_left]

/-- Reading the characters of digits, most significant first, computes their positional value. -/
theorem readDigits_map_digitChar (ds : List Nat) (h : ∀ d ∈ ds, d < 10) :
    readDigits (ds.map digitChar).reverse 0 = some (Nat.ofDigits 10 ds) := by
  induction ds with
  | nil => rfl
  | cons d rest ih =>
    obtain ⟨hd, hrest⟩ := List.forall_mem_cons.mp h
    rw [List.map_cons, List.reverse_cons, readDigits_append, ih hrest, Option.bind_some,
      readDigits_digitChar hd, Nat.ofDigits_cons, Nat.add_comm]

theorem readDigits_digits (n : Nat) : readDigits (digits n) 0 = some n := by
  obtain rfl | hn := Nat.eq_zero_or_pos n
  · rfl
  · rw [digits_eq hn, readDigits_map_digitChar _ fun d hd => Nat.digits_lt_base (by decide) hd,
      Nat.ofDigits_digits]

/-- Each character read adds one decimal place. -/
theorem readDigits_lt {l : List Byte} {acc n : Nat} (h : readDigits l acc = some n) :
    n < (acc + 1) * 10 ^ l.length := by
  induction l generalizing acc with
  | nil =>
    cases h
    simp
  | cons c rest ih =>
    rw [readDigits] at h
    split at h
    case isTrue hdigit =>
      calc n
        _ < (10 * acc + (c.toNat - 0x30) + 1) * 10 ^ rest.length := ih h
        _ ≤ ((acc + 1) * 10) * 10 ^ rest.length := Nat.mul_le_mul_right _ (by omega)
        _ = (acc + 1) * 10 ^ (c :: rest).length := by rw [List.length_cons, pow_succ']; ring
    case isFalse => cases h

theorem readDigits_lt_of_length_le {l : List Byte} {n k : Nat} (h : readDigits l 0 = some n)
    (hl : l.length ≤ k) : n < 10 ^ k :=
  calc n
    _ < (0 + 1) * 10 ^ l.length := readDigits_lt h
    _ = 10 ^ l.length := by rw [Nat.zero_add, Nat.one_mul]
    _ ≤ 10 ^ k := Nat.pow_le_pow_right (by decide) hl

/-! The decimal string (R143). -/

theorem decimal_natCast (n : Nat) : decimal n = digits n := by
  rw [decimal, if_neg (by omega), Int.natAbs_natCast]

theorem decimal_of_neg {v : Int} (h : v < 0) : decimal v = 0x2D#8 :: decimal (-v) := by
  rw [decimal, if_pos h, decimal, if_neg (by omega), Int.natAbs_neg]

theorem decimal_negSucc (n : Nat) : decimal (.negSucc n) = 0x2D#8 :: digits (n + 1) := by
  rw [decimal, if_pos (Int.negSucc_lt_zero n), Int.natAbs_negSucc]

theorem decimal_length_le_six {v : Int} (hlow : -99999 ≤ v) (hhigh : v ≤ 999999) :
    (decimal v).length ≤ 6 := by
  unfold decimal
  split
  · exact Nat.succ_le_succ (digits_length_le (k := 5) (by decide) (by omega))
  · exact digits_length_le (by decide) (by omega)

/-! The six characters (R143). -/

theorem fmt6List_length (v : Int) : (fmt6List v).length = 6 := by
  simp only [fmt6List]
  split
  · rw [List.length_append, List.length_replicate]
    omega
  · rw [List.length_take]
    omega

theorem fmt6_toList (v : Int) : (fmt6 v).toList = fmt6List v := by
  apply List.ext_getElem
  · rw [Vector.length_toList, fmt6List_length]
  · intro i hi hi'
    simp [fmt6, hi']

theorem fmt6_toList_of_length_le {v : Int} (h : (decimal v).length ≤ 6) :
    (fmt6 v).toList = List.replicate (6 - (decimal v).length) 0x20#8 ++ decimal v :=
  (fmt6_toList v).trans (if_pos h)

theorem fmt6_toList_of_lt_length {v : Int} (h : 6 < (decimal v).length) :
    (fmt6 v).toList = (decimal v).take 6 :=
  (fmt6_toList v).trans (if_neg (Nat.not_le.mpr h))

/-! Reading six characters back. -/

/-- What a text shows behind its leading spaces: digits, or a minus sign and digits. -/
theorem readInteger_eq_some_iff {t : Vector Byte 6} {c : Byte} {rest : List Byte}
    (h : t.toList.dropWhile (· == 0x20#8) = c :: rest) (v : Int) : readInteger t = some v ↔
      if c = 0x2D#8 then rest ≠ [] ∧ ∃ n : Nat, readDigits rest 0 = some n ∧ v = -n
      else ∃ n : Nat, readDigits (c :: rest) 0 = some n ∧ v = n := by
  rw [readInteger, h]
  dsimp only
  split
  · cases rest with
    | nil => simp
    | cons d rest => simp [Option.bind_eq_some_iff, eq_comm (a := v)]
  · simp [Option.bind_eq_some_iff, eq_comm (a := v)]

/-- Six characters show no integer outside the displayable range. -/
theorem readInteger_bounds {t : Vector Byte 6} {v : Int} (h : readInteger t = some v) :
    -99999 ≤ v ∧ v ≤ 999999 := by
  have hlength : (t.toList.dropWhile (· == 0x20#8)).length ≤ 6 :=
    (List.length_dropWhile_le _ _).trans_eq t.length_toList
  cases hshown : t.toList.dropWhile (· == 0x20#8) with
  | nil =>
    rw [readInteger, hshown] at h
    cases h
  | cons c rest =>
    rw [readInteger_eq_some_iff hshown] at h
    rw [hshown, List.length_cons] at hlength
    split at h
    · obtain ⟨-, n, hread, rfl⟩ := h
      have hn : n < 10 ^ 5 := readDigits_lt_of_length_le hread (by omega)
      omega
    · obtain ⟨n, hread, rfl⟩ := h
      have hn : n < 10 ^ 6 := readDigits_lt_of_length_le hread hlength
      omega

theorem dropWhile_spaces {c : Byte} (h : c ≠ 0x20#8) (k : Nat) (rest : List Byte) :
    (List.replicate k 0x20#8 ++ c :: rest).dropWhile (· == 0x20#8) = c :: rest := by
  rw [List.dropWhile_append_of_pos (by simp), List.dropWhile_cons_of_neg (by simpa using h)]

/-- A decimal string behind spaces reads as its integer. -/
theorem readInteger_of_spaces_decimal {t : Vector Byte 6} {k : Nat} {v : Int}
    (h : t.toList = List.replicate k 0x20#8 ++ decimal v) : readInteger t = some v := by
  cases v with
  | ofNat n =>
    obtain ⟨d, rest, hd, hdigits⟩ := digits_head n
    have hspace : digitChar d ≠ 0x20#8 := digitChar_ne hd (by simp; omega)
    have hminus : digitChar d ≠ 0x2D#8 := digitChar_ne hd (by simp; omega)
    rw [Int.ofNat_eq_natCast, decimal_natCast, hdigits] at h
    rw [readInteger_eq_some_iff (h ▸ dropWhile_spaces hspace k rest), if_neg hminus, ← hdigits]
    exact ⟨n, readDigits_digits n, rfl⟩
  | negSucc n =>
    obtain ⟨d, rest, -, hdigits⟩ := digits_head (n + 1)
    rw [decimal_negSucc] at h
    rw [readInteger_eq_some_iff (h ▸ dropWhile_spaces (by decide) k _), if_pos rfl]
    exact ⟨by simp [hdigits], n + 1, readDigits_digits (n + 1), Int.negSucc_eq n⟩

/-- Settles O31: digits read back, and six characters show no integer beyond the range. -/
theorem formattedIntegerReadsBackInDisplayableRange :
    Obligations.FormattedIntegerReadsBackInDisplayableRange := by
  unfold Obligations.FormattedIntegerReadsBackInDisplayableRange
  refine ⟨rfl, fun n hn => ?_, fun v hv => decimal_of_neg hv, fun v => ⟨fmt6_toList_of_length_le,
    fmt6_toList_of_lt_length, readInteger_bounds, fun ⟨hlow, hhigh⟩ =>
      readInteger_of_spaces_decimal (fmt6_toList_of_length_le (decimal_length_le_six hlow hhigh))⟩⟩
  obtain ⟨d, rest, hpos, hd, hdigits⟩ := digits_eq_cons hn
  rw [decimal_natCast]
  refine ⟨readDigits_digits n, ?_⟩
  rw [hdigits, List.head?_cons, ne_eq, Option.some_inj]
  exact digitChar_ne hd (by simp; omega)

end Sys2Proof.Machine
end

section
/-! PROOFS. The prints (spec/42_numeric_frontend.md R140 to R151). Decimal points and cells share no bit
(R8 (c)), so the cells keep the text they were written; all points are cleared before one is set, so it is
the only one lit. -/

namespace Sys2Proof

/-- The five positions have five different decimal points. -/
theorem WFConfig.point_inj (c : WFConfig) {i j : Fin 5} : c.dploc[i] = c.dploc[j] ↔ i = j := by
  refine ⟨fun h => Fin.ext ?_, fun h => h ▸ rfl⟩
  exact c.points_nodup.getElem_inj_iff (hi := by simp) (hj := by simp) |>.mp (by simpa using h)

theorem WFConfig.point_mem (c : WFConfig) (j : Fin 5) : c.dploc[j] ∈ c.dploc.toList := by simp

theorem WFConfig.cell_disjoint_points (c : WFConfig) (k : Fin 6) : c.cell[k].bits.Disjoint c.dpBits :=
  List.disjoint_of_subset_left (c.cell_bits_subset k)
    (c.families_disjoint (f := .cells) (g := .points) (by simp))

end Sys2Proof

namespace Sys2Proof.Machine

/-! The decimal point (R126, R145, R151). -/

theorem precOf_of_unlisted {mult : BitVec 24} (h : mult.toNat ∉ [10, 100, 1000, 10000, 100000]) :
    precOf mult = 0 := by
  simp only [List.mem_cons, List.not_mem_nil, or_false, not_or] at h
  obtain ⟨h10, h100, h1000, h10000, h100000⟩ := h
  unfold precOf
  split <;> trivial

/-- The point of precision `p` has `p` of the six cells right of it (R151). -/
theorem dpPosition_eq_iff (p : Nat) (j : Fin 5) : dpPosition p = j.val + 1 ↔ j.val + 1 + p = 6 := by
  unfold dpPosition
  omega

/-- Settles O32: the multipliers one by one, and a subtraction. -/
theorem multiplierGivesDecimalPointPosition : Obligations.MultiplierGivesDecimalPointPosition := by
  unfold Obligations.MultiplierGivesDecimalPointPosition
  refine ⟨fun mult => ⟨?_, ?_, ?_, ?_, ?_, precOf_of_unlisted⟩, fun p hp => ?_⟩
  iterate 5 exact fun h => by simp [precOf, h]
  unfold dpPosition
  omega

theorem State.setDp_of_inside (s : State) (i : Fin 5) :
    s.setDp (i.val + 1) = s.segWrite s.cfg.dploc[i] true := by
  simp [State.setDp, show (i.val : Int) + 1 ≤ 5 by omega]

theorem State.setDp_of_outside (s : State) {pos : Int} (h : ¬(1 ≤ pos ∧ pos ≤ 5)) : s.setDp pos = s :=
  dif_neg h

/-- `set_dp` lights the point at its position and leaves the others. -/
theorem State.seg_setDp (s : State) (pos : Int) (j : Fin 5) :
    (s.setDp pos).seg s.cfg.dploc[j] = (decide (pos = j.val + 1) || s.seg s.cfg.dploc[j]) := by
  by_cases hpos : 1 ≤ pos ∧ pos ≤ 5
  · obtain ⟨i, rfl⟩ : ∃ i : Fin 5, pos = i.val + 1 :=
      ⟨⟨(pos - 1).toNat, by omega⟩, by simp; omega⟩
    rw [s.setDp_of_inside]
    by_cases hij : j = i
    · subst hij
      rw [s.seg_segWrite_same (s.cfg.locator_wf_of_mem_points (s.cfg.point_mem j)), decide_eq_true rfl,
        Bool.true_or]
    · have hother := s.cfg.points_disjoint (s.cfg.point_mem j) (s.cfg.point_mem i)
        fun h => hij (s.cfg.point_inj.mp h)
      rw [State.seg_segWrite_other s hother, decide_eq_false (by omega), Bool.false_or]
  · rw [s.setDp_of_outside hpos, decide_eq_false (by omega), Bool.false_or]

theorem State.setDp_of_precision_zero (s : State) : s.setDp (dpPosition 0) = s :=
  s.setDp_of_outside (by decide)

/-! What the pipeline shows (R140). -/

section
variable (s : State) (v : Int) (p : Nat)

theorem State.cellPattern_showInteger (k : Fin 6) :
    (s.showInteger v).cellPattern k = glyphOf s.cfg (fmt6 v)[k] := by
  rw [State.showInteger, State.cellPattern_of_sameBitsBut (State.clearDps_sameBitsBut _)
    (State.clearDps_onlyBuffer _).cfg_eq (WFConfig.cell_disjoint_points _ k), State.cellPattern_putText]

theorem State.cellPattern_showScaled (k : Fin 6) :
    (s.showScaled v p).cellPattern k = glyphOf s.cfg (fmt6 v)[k] := by
  rw [State.showScaled, State.cellPattern_of_sameBitsBut (State.setDp_sameBitsBut _ _)
    (State.setDp_onlyBuffer _ _).cfg_eq (WFConfig.cell_disjoint_points _ k), State.cellPattern_showInteger]

/-- Exactly the point `p` digits from the right is lit (R151). -/
theorem State.seg_showScaled (j : Fin 5) :
    (s.showScaled v p).seg s.cfg.dploc[j] = decide (j.val + 1 + p = 6) := by
  have hdark := s.showInteger_pointsDark v _ ((s.showInteger v).cfg.point_mem j)
  have hset := (s.showInteger v).seg_setDp (dpPosition p) j
  rw [hdark, Bool.or_false] at hset
  simp only [State.showInteger_cfg] at hset
  rw [State.showScaled, hset, decide_eq_decide, dpPosition_eq_iff]

/-- What PRFIX and PRFLT leave after their conversion: one print with a precision, and its frame. -/
theorem State.showScaled_flush_shows :
    (∀ k : Fin 6, (s.showScaled v p).flush.cellPattern k = glyphOf s.cfg (fmt6 v)[k])
      ∧ (∀ j : Fin 5, (s.showScaled v p).flush.seg s.cfg.dploc[j] = decide (j.val + 1 + p = 6))
      ∧ SameBitsBut (s.cfg.cellBits ++ s.cfg.dpBits) s (s.showScaled v p).flush
      ∧ FrameSent s (s.showScaled v p).flush (s.showScaled v p).flush.dbBytes
      ∧ SameLatches s (s.showScaled v p).flush ∧ SamePort s (s.showScaled v p).flush :=
  ⟨fun k => (State.cellPattern_flush _ k).trans (s.cellPattern_showScaled v p k),
    fun j => (State.seg_flush ..).trans (s.seg_showScaled v p j), (s.showScaled_sameBitsBut v p).flush,
    (s.showScaled_onlyBuffer v p).flush_leaves⟩

end

/-! PRINT (R144). -/

/-- Settles O33: the text is written, then every point is cleared. -/
theorem printShowsClampedInteger : Obligations.PrintShowsClampedInteger := by
  unfold Obligations.PrintShowsClampedInteger
  intro n s
  have hdark := s.showInteger_pointsDark (clamp s.cfg n.toInt)
  rw [PointsDark, State.showInteger_cfg] at hdark
  exact ⟨_, rfl, fun k => (State.cellPattern_flush _ k).trans (s.cellPattern_showInteger _ k),
    fun loc hloc => (State.seg_flush ..).trans (hdark loc hloc), (s.showInteger_sameBitsBut _).flush,
    (s.showInteger_onlyBuffer _).flush_leaves⟩

theorem exec_print_congr {m n : BitVec 32} {s : State} (h : clamp s.cfg m.toInt = clamp s.cfg n.toInt) :
    exec (.print m) s = exec (.print n) s :=
  congrArg (fun v => Host.Outcome.next (s.showInteger v).flush) h

/-- Settles O38: an integer and the bound it is clamped to have the same clamp, as a bound fits 32 bits. -/
theorem outOfRangeIntegerPrintsTheBound : Obligations.OutOfRangeIntegerPrintsTheBound := by
  unfold Obligations.OutOfRangeIntegerPrintsTheBound
  intro n s
  obtain ⟨hneg, hpos, hlow, hhigh⟩ := s.cfg.clamp_bounds
  obtain ⟨-, -, -, hbelow, habove⟩ := clampReturnsNearestBound s.cfg n.toInt
  refine ⟨fun h => exec_print_congr ?_, fun h => exec_print_congr ?_⟩
  · rw [habove h, BitVec.toInt_ofInt_eq_self (by decide) (by omega) (by omega),
      clamp_of_mem _ (by omega) (by omega)]
  · rw [hbelow h, BitVec.toInt_ofInt_eq_self (by decide) (by omega) (by omega),
      clamp_of_mem _ (by omega) (by omega)]

/-! PRFIX (R145, R146). -/

/-- Settles O34: PRFIX is the pipeline on its clamped mantissa. -/
theorem prfixShowsMantissaAndDecimalPoint : Obligations.PrfixShowsMantissaAndDecimalPoint := by
  unfold Obligations.PrfixShowsMantissaAndDecimalPoint
  intro mult m s
  exact ⟨_, rfl, s.showScaled_flush_shows (clamp s.cfg m.toInt) (precOf mult)⟩

/-- Settles O37: precision 0 sets no point. -/
theorem unlistedMultiplierPrintsInteger : Obligations.UnlistedMultiplierPrintsInteger := by
  unfold Obligations.UnlistedMultiplierPrintsInteger
  intro mult m s h
  have hscaled := (s.showInteger (clamp s.cfg m.toInt)).setDp_of_precision_zero
  rw [← precOf_of_unlisted h] at hscaled
  exact congrArg (fun t => Host.Outcome.next t.flush) hscaled

/-! PRFLT (R147 to R150). -/

/-- The magnitude of a negative float is neither zero nor a NaN (R148). -/
theorem isNegative_eq (x : BitVec 32) : isNegative x =
    (x.getLsbD 31 && decide (x.extractLsb' 0 31 ≠ 0#31)
      && decide ((x.extractLsb' 0 31).toNat ≤ 0x7F800000)) := by
  have hzero : 0 < (x.extractLsb' 0 31).toNat ↔ x.extractLsb' 0 31 ≠ 0#31 :=
    Nat.pos_iff_ne_zero.trans (BitVec.toNat_ne_iff_ne (y := 0#31))
  rw [isNegative, decide_eq_decide.mpr hzero]

/-- Settles O35: PRFLT is the pipeline on its scaled, clamped and signed value. -/
theorem prfltShowsScaledFloat : Obligations.PrfltShowsScaledFloat := by
  unfold Obligations.PrfltShowsScaledFloat
  intro prec x s
  rw [← isNegative_eq x]
  exact ⟨_, rfl, s.showScaled_flush_shows (floatValue Config.fscale.scale s.cfg prec x)
    (floatPrecision prec x)⟩

/-- The document's conversion, when the bounds leave its result as it is (R149). -/
theorem floatValue_document_example {c : WFConfig} (h : 314 ≤ c.clampMax) :
    floatValue Config.fscale.scale c 2#3 0x40490FD0#32 = 314 := by
  obtain ⟨hlow, -⟩ := c.clamp_bounds
  have hpositive : isNegative 0x40490FD0#32 = false := by decide
  have hprecision : floatPrecision 2#3 0x40490FD0#32 = 2 := by decide
  have hclamp : clamp c 314 = 314 := clamp_of_mem c (by omega) h
  simp [floatValue, magnitude, hpositive, hprecision, Config.fscale.document_example, hclamp]

theorem fmt6_314 : fmt6 314 = #v[0x20#8, 0x20#8, 0x20#8, 0x33#8, 0x31#8, 0x34#8] := by decide

/-- Settles O36: the pipeline shows 314 with two digits right of the point. -/
theorem documentFloatExample : Obligations.DocumentFloatExample := by
  unfold Obligations.DocumentFloatExample
  intro s h
  obtain ⟨hcells, hpoints, -⟩ := s.showScaled_flush_shows 314 2
  have hexec : exec (.prflt 2#3 0x40490FD0#32) s = .next (s.showScaled 314 2).flush :=
    congrArg (fun v => Host.Outcome.next (s.showScaled v 2).flush) (floatValue_document_example h)
  rw [fmt6_314] at hcells
  exact ⟨_, hexec, hcells, fun j => (hpoints j).trans (decide_eq_decide.mpr (by omega))⟩

end Sys2Proof.Machine
end

section
/-! PROOFS. The frame serializer (spec/43_serializer.md) and what a receiver samples of its frames
(spec/44_transport.md R186, R187). The first facts are about frame values and their wire bytes, by recursion
on the last byte; the operations that send a frame then follow from what `wrFrame` leaves. -/

namespace Sys2Proof.Machine

/-! Frame values and their wire bytes (R54, R171). -/

/-- The wire bytes of a longer frame are those of its value without the low byte, and then that byte. -/
theorem wireBytes_succ (V : BitVec 144) (n : Nat) :
    wireBytes V (n + 1) = wireBytes (V >>> 8) n ++ [V.setWidth 8] := by
  have hlast : wireByte V (n + 1) n = V.setWidth 8 := by
    simp [wireByte, BitVec.setWidth_eq_extractLsb']
  have hearlier (i : Nat) (hi : i < n) : wireByte V (n + 1) i = wireByte (V >>> 8) n i := by
    have hplace : 8 * (n + 1 - 1 - i) = 8 + 8 * (n - 1 - i) := by omega
    unfold wireByte
    rw [hplace]
    ext j hj
    simp [Nat.add_assoc]
  rw [wireBytes, List.range_succ, List.map_append, List.map_singleton, hlast]
  exact congrArg (· ++ _) (List.map_congr_left fun i hi => hearlier i (List.mem_range.mp hi))

/-- A value is its low byte put below the rest. -/
theorem shiftLeft_shiftRight_or_low_byte (V : BitVec 144) :
    ((V >>> 8) <<< 8) ||| (V.setWidth 8).setWidth 144 = V := by
  ext j hj
  by_cases hlow : j < 8
  · simp [hlow, BitVec.getLsbD_eq_getElem hj]
  · have hback : 8 + (j - 8) = j := by omega
    simp [hlow, hback, hj]

/-- A frame value that fits its length is given back by its wire bytes joined (R171 (b)). -/
theorem frameValue_wireBytes {V : BitVec 144} {n : Nat} (h : V.toNat < 2 ^ (8 * n)) :
    frameValue (wireBytes V n) = V := by
  induction n generalizing V with
  | zero =>
    have hzero : V = 0#144 := BitVec.eq_of_toNat_eq (by simpa using h)
    exact hzero.symm
  | succ n ih =>
    have hrest : (V >>> 8).toNat < 2 ^ (8 * n) := by
      rw [BitVec.toNat_ushiftRight, Nat.shiftRight_eq_div_pow]
      exact Nat.div_lt_of_lt_mul (by rwa [← pow_add, Nat.add_comm])
    rw [wireBytes_succ, frameValue_concat, ih hrest, shiftLeft_shiftRight_or_low_byte]

/-- The bits of a frame on the wire are those of its value from the highest down (R56, R171 (e)). -/
theorem wireBytes_flatMap_bitsMsbFirst (V : BitVec 144) (n : Nat) :
    (wireBytes V n).flatMap bitsMsbFirst =
      (List.range (8 * n)).map fun j => V.getLsbD (8 * n - 1 - j) := by
  induction n generalizing V with
  | zero => rfl
  | succ n ih =>
    have hhigh : (List.range (8 * n)).map (fun j => (V >>> 8).getLsbD (8 * n - 1 - j)) =
        (List.range (8 * n)).map fun j => V.getLsbD (8 * (n + 1) - 1 - j) :=
      List.map_congr_left fun j hj => by
        have hj := List.mem_range.mp hj
        have hplace : 8 + (8 * n - 1 - j) = 8 * (n + 1) - 1 - j := by omega
        rw [BitVec.getLsbD_ushiftRight, hplace]
    have hlow : bitsMsbFirst (V.setWidth 8) =
        (List.range 8).map fun j => V.getLsbD (8 * (n + 1) - 1 - (8 * n + j)) := by
      have hplace (j : Nat) : 8 * (n + 1) - 1 - (8 * n + j) = 7 - j := by omega
      simp only [hplace]
      simp [bitsMsbFirst, List.range_succ]
    rw [wireBytes_succ, List.flatMap_append, List.flatMap_singleton, ih, hhigh, hlow, Nat.mul_succ,
      List.range_add, List.map_append, List.map_map]
    rfl

/-! The command frame (R161, R76). -/

theorem cmdFrame_eq_shifts (type : BitVec 4) (operand : Byte) :
    cmdFrame type operand = (type.setWidth 16 <<< 12) ||| (operand.setWidth 16 <<< 4) :=
  calc cmdFrame type operand
    _ = (type ++ operand ++ 0#4).setWidth 16 := (BitVec.setWidth_eq _).symm
    _ = (type.setWidth 16 <<< 12) ||| (operand.setWidth 16 <<< 4) ||| (0#4).setWidth 16 :=
      BitVec.setWidth_append_append_eq_shiftLeft_setWidth_or
    _ = (type.setWidth 16 <<< 12) ||| (operand.setWidth 16 <<< 4) := BitVec.or_zero

/-- The first byte of a command frame holds the type and the high half of the operand. -/
theorem cmdFrame_high_byte (type : BitVec 4) (operand : Byte) :
    (cmdFrame type operand).extractLsb' 8 8 = type ++ operand.extractLsb' 4 4 :=
  calc (cmdFrame type operand).extractLsb' 8 8
    _ = (type ++ operand).extractLsb' 4 8 := extractLsb'_append_above (type ++ operand) 0#4 4 8
    _ = (type ++ operand).extractLsb' 8 4 ++ (type ++ operand).extractLsb' 4 4 :=
      (extractLsb'_append_adjacent (type ++ operand) 4 4 4).symm
    _ = type ++ operand.extractLsb' 4 4 := by
      rw [BitVec.extractLsb'_append_eq_left, BitVec.extractLsb'_append_eq_of_add_le (by decide)]

/-- The second byte of a command frame holds the low half of the operand over the padding. -/
theorem cmdFrame_low_byte (type : BitVec 4) (operand : Byte) :
    (cmdFrame type operand).extractLsb' 0 8 = operand.extractLsb' 0 4 ++ 0#4 :=
  calc (cmdFrame type operand).extractLsb' 0 8
    _ = (cmdFrame type operand).extractLsb' 4 4 ++ (cmdFrame type operand).extractLsb' 0 4 :=
      (extractLsb'_append_adjacent (cmdFrame type operand) 0 4 4).symm
    _ = (type ++ operand).extractLsb' 0 4 ++ 0#4 :=
      congrArg₂ (· ++ ·) (extractLsb'_append_above (type ++ operand) 0#4 0 4)
        BitVec.extractLsb'_append_eq_right
    _ = operand.extractLsb' 0 4 ++ 0#4 := by
      rw [BitVec.extractLsb'_append_eq_of_add_le (by decide)]

theorem cmdWire_eq_wireBytes (type : BitVec 4) (operand : Byte) :
    cmdWire type operand = wireBytes ((cmdFrame type operand).setWidth 144) 2 := by
  have hbytes : wireBytes ((cmdFrame type operand).setWidth 144) 2 =
      [((cmdFrame type operand).setWidth 144).extractLsb' 8 8,
        ((cmdFrame type operand).setWidth 144).extractLsb' 0 8] := rfl
  rw [hbytes, BitVec.extractLsb'_setWidth_of_le (by decide), BitVec.extractLsb'_setWidth_of_le (by decide),
    cmdFrame_high_byte, cmdFrame_low_byte, cmdWire]

/-- Four bits above the high half of a byte are the byte's shift to the right with them on top. -/
theorem append_high_half (x : BitVec 4) (b : Byte) :
    x ++ b.extractLsb' 4 4 = (x.setWidth 8 <<< 4) ||| (b >>> 4) := by
  have hhalf : (b.extractLsb' 4 4).setWidth 8 = b >>> 4 := by
    ext j hj
    by_cases hin : j < 4
    · simp [hin]
    · have hpast : b.getLsbD (4 + j) = false := BitVec.getLsbD_of_ge b _ (by omega)
      simp [hpast]
  rw [← hhalf, ← BitVec.setWidth_append_eq_shiftLeft_setWidth_or]
  exact (BitVec.setWidth_eq _).symm

/-- The low half of a byte over four zero bits is the byte's shift to the left. -/
theorem low_half_append_zero (b : Byte) : b.extractLsb' 0 4 ++ 0#4 = b <<< 4 := by
  have hhalf : (b.extractLsb' 0 4).setWidth 8 <<< 4 = b <<< 4 := by
    ext j hj
    have hin : j - 4 < 4 := by omega
    simp [hin, BitVec.getLsbD_eq_getElem (show j - 4 < 8 by omega)]
  refine (BitVec.setWidth_eq _).symm.trans (BitVec.setWidth_append_eq_shiftLeft_setWidth_or.trans ?_)
  rw [hhalf]
  exact BitVec.or_zero

theorem wireBytes_cmdFrame (type : BitVec 4) (operand : Byte) :
    wireBytes ((cmdFrame type operand).setWidth 144) 2 =
      [(type.setWidth 8 <<< 4) ||| (operand >>> 4), operand <<< 4] := by
  rw [← cmdWire_eq_wireBytes, cmdWire, append_high_half, low_half_append_zero]

/-- Settles O47, by the equations of the command frame. -/
theorem commandFrameWireBytes : Obligations.CommandFrameWireBytes := by
  unfold Obligations.CommandFrameWireBytes
  intro type operand
  exact ⟨cmdFrame_eq_shifts type operand, wireBytes_cmdFrame type operand,
    cmdWire_eq_wireBytes type operand⟩

/-- Settles O48: a frame value gives back the 18 bytes it was made of. -/
theorem dataFrameCarriesTheBuffer : Obligations.DataFrameCarriesTheBuffer := by
  unfold Obligations.DataFrameCarriesTheBuffer
  exact State.wireBytes_dataFrame

/-! Reversal (R164, R171 (a), (b)). -/

theorem reversedImage_reversedImage (n : Fin 19) (old : Vector Byte 18) :
    reversedImage n (reversedImage n old) = old := by
  ext i hi
  rw [reversedImage_get _ _ _ hi]
  by_cases hin : i < n.val
  · have hback : n.val - 1 - (n.val - 1 - i) = i := by omega
    rw [dif_pos hin, reversedImage_get _ _ _ (by omega), dif_pos (by omega)]
    simp only [hback]
  · rw [dif_neg hin, reversedImage_get _ _ _ hi, dif_neg hin]

/-- The whole staging register is as it was, and so is what stands in `S[0..SN-1]`. -/
theorem State.reverse_reverse (s : State) : s.reverse.reverse = s :=
  congrArg (fun stg => { s with stg := stg }) (reversedImage_reversedImage s.sn s.stg)

/-- Settles O50: reversal mirrors the places below `SN`, and what is then streamed are the wire bytes. -/
theorem reverseIsAnInvolution : Obligations.ReverseIsAnInvolution := by
  unfold Obligations.ReverseIsAnInvolution
  refine ⟨fun s => congrArg State.staged s.reverse_reverse, fun s V => ?_, fun s V => ?_⟩
  · rw [s.staged_reverse_stage]
    have hfits : (V.setWidth 144).toNat < 2 ^ (8 * 2) := by
      rw [BitVec.toNat_setWidth_of_le (by decide)]
      exact V.isLt
    exact frameValue_wireBytes hfits
  · rw [s.staged_reverse_stage]
    exact frameValue_wireBytes V.isLt

/-! What a receiver samples (R185, R187). -/

theorem pinsOut_eq_flatMap_bits (bs : List Byte) :
    pinsOut bs = (bs.flatMap bitsMsbFirst).flatMap bitEvents := List.flatMap_assoc.symm

/-- Chip select is not sampled. -/
theorem sampledFrom_csEvent_append (c : WFConfig) (level : Bool) (d : Option Bool) (low : Bool)
    (rest : List Event) : sampledFrom d low (csEvent c level ++ rest) = sampledFrom d low rest := by
  unfold csEvent
  split <;> rfl

/-- The three events of a bit hand over that bit, whatever was on the pins before. -/
theorem sampledFrom_bitEvents_append (v : Bool) (d : Option Bool) (low : Bool) (rest : List Event) :
    sampledFrom d low (bitEvents v ++ rest) = v :: sampledFrom (some v) false rest := rfl

/-- Bits streamed up to the end of a frame are sampled as they stand. -/
theorem sampledFrom_bits (c : WFConfig) (vs : List Bool) (d : Option Bool) (low : Bool) :
    sampledFrom d low (vs.flatMap bitEvents ++ csEvent c true) = vs := by
  induction vs generalizing d low with
  | nil =>
    have hend := sampledFrom_csEvent_append c true d low []
    rwa [List.append_nil] at hend
  | cons v vs ih =>
    rw [List.flatMap_cons, List.append_assoc, sampledFrom_bitEvents_append, ih]

theorem sampled_frameEvents_of_pins {c : WFConfig} (h : c.transport = .pins) (ws : List Byte) :
    sampled (frameEvents c ws) = ws.flatMap bitsMsbFirst := by
  rw [sampled, frameEvents_of_pins h, List.append_assoc, sampledFrom_csEvent_append,
    pinsOut_eq_flatMap_bits, sampledFrom_bits]

theorem filter_csEvent_eq_nil (c : WFConfig) (level : Bool) :
    (csEvent c level).filter (fun e => decide (e ≠ .pin .cs false ∧ e ≠ .pin .cs true)) = [] := by
  unfold csEvent
  split
  · cases level <;> rfl
  · rfl

/-- Settles O51, bit by bit in PINS transport; in BLOCK transport only chip select stands around the one
block write. -/
theorem sampledBitsAreTheWireBytes : Obligations.SampledBitsAreTheWireBytes := by
  unfold Obligations.SampledBitsAreTheWireBytes
  refine ⟨fun c ws h => sampled_frameEvents_of_pins h ws, fun c type operand h => ?_, fun c ws h => ?_⟩
  · rw [sampled_frameEvents_of_pins h, cmdWire_eq_wireBytes, wireBytes_flatMap_bitsMsbFirst]
    refine List.map_congr_left fun j _ => ?_
    have hfits : 8 * 2 - 1 - j < 144 := by omega
    simp [hfits]
  · rw [frameEvents_of_block h, List.filter_append, List.filter_append, filter_csEvent_eq_nil,
      filter_csEvent_eq_nil]
    rfl

/-! Operations that send one frame and nothing else (R163 to R168). -/

/-- What sending a frame of one byte or more leaves, in the buffer, the latches and the port (R165). -/
theorem State.wrFrame_leaves (s : State) (V : BitVec 144) {n : Fin 19} (hn : 1 ≤ n.val) :
    FrameSent s (s.wrFrame V n) (wireBytes V n.val)
      ∧ SameBuffer s (s.wrFrame V n) ∧ SameLatches s (s.wrFrame V n) ∧ SamePort s (s.wrFrame V n) := by
  obtain ⟨hcfg, -, hdisp, hblt, hbusy, hinputs, -⟩ := s.wrFrame_frame V n
  exact ⟨s.wrFrame_frameSent V hn, s.wrFrame_sameBuffer V n, ⟨hdisp, hblt⟩, hcfg, hbusy, hinputs⟩

/-- Settles O49, by what the staging register streams and what emitting its events leaves. -/
theorem wrFrameSendsWireBytes : Obligations.WrFrameSendsWireBytes := by
  unfold Obligations.WrFrameSendsWireBytes
  intro s V n hn
  exact s.wrFrame_leaves V hn

/-- Settles O53: a flush is the data frame sent, and its wire bytes are the buffer. -/
theorem flushSendsTheBuffer : Obligations.FlushSendsTheBuffer := by
  unfold Obligations.FlushSendsTheBuffer
  intro s
  obtain ⟨-, hkept⟩ := s.wrFrame_leaves s.dataFrame (n := 18) (by decide)
  exact ⟨_, rfl, s.flush_frameSent, hkept⟩

/-- What one command frame leaves (R168). -/
theorem State.wrCmd_leaves (s : State) (type : BitVec 4) (operand : Byte) :
    FrameSent s (s.wrCmd type operand) [(type.setWidth 8 <<< 4) ||| (operand >>> 4), operand <<< 4]
      ∧ SameBuffer s (s.wrCmd type operand) ∧ SameLatches s (s.wrCmd type operand)
      ∧ SamePort s (s.wrCmd type operand) :=
  wireBytes_cmdFrame type operand ▸
    s.wrFrame_leaves ((cmdFrame type operand).setWidth 144) (n := 2) (by decide)

/-- Settles O54: WRCMD is one command frame. -/
theorem wrcmdSendsOneCommandFrame : Obligations.WrcmdSendsOneCommandFrame := by
  unfold Obligations.WrcmdSendsOneCommandFrame
  intro type operand s
  exact ⟨_, rfl, s.wrCmd_leaves type operand⟩

/-- Settles O55: the row CMDFRAME sends what WRCMD with the same operands sends. -/
theorem cmdframeSendsItself : Obligations.CmdframeSendsItself := by
  unfold Obligations.CmdframeSendsItself
  intro type operand s
  exact ⟨_, rfl, s.wrCmd_leaves type operand⟩

/-! Operations that can change the buffer (R23, R169). -/

/-- An operation that can change the buffer writes the buffer and then flushes it once, if its number is in
its table. -/
theorem exec_of_mutates {i : Instr} {s : State} (hmutates : mutates i = true)
    (hin : ¬ beyondTable s.cfg i) : ∃ u, OnlyBuffer s u ∧ exec i s = .next u.flush := by
  cases i with
  | clear => exact ⟨_, s.clearData_onlyBuffer, rfl⟩
  | prtxt len c0 c1 c2 c3 c4 c5 => exact ⟨_, s.putText_onlyBuffer _, rfl⟩
  | print n => exact ⟨_, s.showInteger_onlyBuffer _, rfl⟩
  | prfix mult m => exact ⟨_, s.showScaled_onlyBuffer _ _, rfl⟩
  | prflt prec x => exact ⟨_, s.showScaled_onlyBuffer _ _, rfl⟩
  | icon id en =>
    exact ⟨_, s.segWrite_onlyBuffer _ en,
      congrArg Host.Outcome.next (s.switchIcon_of_lt (Nat.lt_of_not_le hin) en)⟩
  | icon2 id en mode =>
    exact ⟨_, s.pairWrite_onlyBuffer _ _ en mode,
      congrArg Host.Outcome.next (s.switchPair_of_lt (Nat.lt_of_not_le hin) en mode)⟩
  | batt pct => exact ⟨_, s.batteryWrite_onlyBuffer _, rfl⟩
  | signal pct => exact ⟨_, s.signalWrite_onlyBuffer _, rfl⟩
  | _ => cases hmutates

/-- A number beyond its table does nothing at all (R122, R123). -/
theorem exec_of_beyondTable {i : Instr} {s : State} (h : beyondTable s.cfg i) : exec i s = .next s := by
  cases i with
  | icon id en => exact congrArg Host.Outcome.next (s.switchIcon_of_le h en)
  | icon2 id en mode => exact congrArg Host.Outcome.next (s.switchPair_of_le h en mode)
  | _ => cases h

/-- An operation that cannot change the buffer writes no family of bits, and is not CLEAR. -/
theorem writtenFamilies_of_not_mutates {i : Instr} (h : mutates i = false) :
    i ≠ .clear ∧ writtenFamilies i = [] := by
  cases i with
  | wrcmd | flush | dispon | dispoff | blon | bloff | cmdframe => exact ⟨nofun, rfl⟩
  | _ => cases h

theorem exec_sameBuffer_of_not_mutates {i : Instr} {s t : State} (hmutates : mutates i = false)
    (h : exec i s = .next t) : SameBuffer s t := by
  obtain ⟨hclear, hnone⟩ := writtenFamilies_of_not_mutates hmutates
  have hbits := exec_sameBitsBut hclear h
  rw [hnone] at hbits
  exact sameBuffer_iff_bit.mpr fun i b => hbits i b List.not_mem_nil

/-- Settles O56, by what the operation is: one that flushes what it wrote, one beyond its table, or one that
writes no family of bits. -/
theorem mutatingOperationsEndWithOneFlush : Obligations.MutatingOperationsEndWithOneFlush := by
  unfold Obligations.MutatingOperationsEndWithOneFlush
  intro i s t h
  refine ⟨fun hmutates hin => ?_, fun hbeyond => ?_, fun hkeeps => exec_sameBuffer_of_not_mutates hkeeps h⟩
  · obtain ⟨u, hu, hexec⟩ := exec_of_mutates hmutates hin
    cases hexec.symm.trans h
    exact hu.flush_frameSent
  · cases (exec_of_beyondTable hbeyond).symm.trans h
    rfl

end Sys2Proof.Machine
end

section
/-! PROOFS. Event counts: the events of a frame and of the init sequence in the four strappings
(spec/44_transport.md R182 to R185, R188; spec/70_reset_and_hazards.md R243, R245). -/

namespace Sys2Proof.Machine

/-- Pieces of one length, one for each element. -/
theorem length_flatMap_of_forall {α β : Type} {f : α → List β} {n : Nat} (h : ∀ a, (f a).length = n)
    (l : List α) : (l.flatMap f).length = n * l.length := by
  simp [List.length_flatMap, h, Nat.mul_comm]

theorem csEvent_length (c : WFConfig) (level : Bool) :
    (csEvent c level).length = if c.hasCs then 1 else 0 := by
  unfold csEvent
  split <;> rfl

/-- Eight bits to the byte, three events to the bit (R185). -/
theorem pinsOut_length (bs : List Byte) : (pinsOut bs).length = 24 * bs.length := by
  have hbyte (b : Byte) : ((bitsMsbFirst b).flatMap bitEvents).length = 24 := rfl
  exact length_flatMap_of_forall hbyte bs

/-- The table of R188, for a frame of any length. -/
theorem frameEvents_length (c : WFConfig) (ws : List Byte) : (frameEvents c ws).length =
    (if c.transport = .pins then 24 * ws.length else 1) + (if c.hasCs then 2 else 0) := by
  have hcs : (csEvent c false).length + (csEvent c true).length = if c.hasCs then 2 else 0 := by
    rw [csEvent_length, csEvent_length]
    split <;> rfl
  cases h : c.transport with
  | block =>
    rw [frameEvents_of_block h, if_neg (by decide), ← hcs]
    simp only [List.length_append, List.length_singleton]
    omega
  | pins =>
    rw [frameEvents_of_pins h, if_pos rfl, ← hcs]
    simp only [List.length_append, pinsOut_length]
    omega

/-- The row of the table of R188 for command frames: two bytes each. -/
theorem commandFrame_length (c : WFConfig) (type : BitVec 4) (operand : Byte) :
    (frameEvents c (cmdWire type operand)).length =
      (if c.transport = .pins then 48 else 1) + (if c.hasCs then 2 else 0) :=
  frameEvents_length c (cmdWire type operand)

/-- The init sequence is six command frames (R188, R243). -/
theorem initEvents_length (c : WFConfig) : (initEvents c).length =
    (if c.transport = .pins then 288 else 6) + (if c.hasCs then 12 else 0) := by
  rw [initEvents, length_flatMap_of_forall (commandFrame_length c c.cmdType), Vector.length_toList]
  split <;> split <;> rfl

/-- Settles O11: the count of one frame, the count of six command frames, and the one block write that a
command frame can hold. -/
theorem eventCountsPerFrame : Obligations.EventCountsPerFrame := by
  unfold Obligations.EventCountsPerFrame
  intro c
  exact ⟨frameEvents_length c, initEvents_length c, fun _ h => length_of_blk_mem_initEvents h⟩

end Sys2Proof.Machine
end

section
/-! PROOFS. The control operations (spec/45_control.md): what switching the display on or off leaves, and
what switching the backlight does with a pin and without one. Each is said once for both directions. -/

namespace Sys2Proof.Machine

/-! Display on and off (R200, R201). -/

/-- What a command frame of the configuration's type leaves (R170). -/
theorem State.sendCmd_leaves (s : State) (operand : Byte) :
    FrameSent s (s.sendCmd operand) (cmdWire s.cfg.cmdType operand)
      ∧ SameBuffer s (s.sendCmd operand) ∧ SameLatches s (s.sendCmd operand)
      ∧ SamePort s (s.sendCmd operand) :=
  cmdWire_eq_wireBytes s.cfg.cmdType operand ▸
    s.wrFrame_leaves ((cmdFrame s.cfg.cmdType operand).setWidth 144) (n := 2) (by decide)

/-- The display latch takes the new value, whatever it was; nothing that a frame leaves depends on it. -/
theorem State.switchDisplay_leaves (s : State) (operand : Byte) (on : Bool) :
    let t := { s.sendCmd operand with disp := on }
    FrameSent s t (cmdWire s.cfg.cmdType operand)
      ∧ t.disp = on ∧ t.blt = s.blt ∧ SameBuffer s t ∧ SamePort s t := by
  obtain ⟨hsent, hbuffer, ⟨-, hblt⟩, hport⟩ := s.sendCmd_leaves operand
  exact ⟨hsent, rfl, hblt, hbuffer, hport⟩

/-- Settles O57: both operations are one command frame and one write of the display latch. -/
theorem displaySwitchSendsCommandAndSetsLatch : Obligations.DisplaySwitchSendsCommandAndSetsLatch := by
  unfold Obligations.DisplaySwitchSendsCommandAndSetsLatch
  intro s
  exact ⟨⟨_, rfl, s.switchDisplay_leaves s.cfg.cmdLcdOn true⟩,
    ⟨_, rfl, s.switchDisplay_leaves s.cfg.cmdLcdOff false⟩⟩

/-! Backlight on and off (R202, R203). -/

/-- BLON and BLOFF in one. -/
def State.switchBacklight (s : State) (on : Bool) : State :=
  if s.cfg.hasBl then { s.emit (.pin .bl on) with blt := on } else s

theorem exec_blon (s : State) : exec .blon s = .next (s.switchBacklight true) := rfl

theorem exec_bloff (s : State) : exec .bloff s = .next (s.switchBacklight false) := rfl

theorem State.switchBacklight_of_hasBl {s : State} (h : s.cfg.hasBl = true) (on : Bool) :
    s.switchBacklight on = { s with out := s.out ++ [.pin .bl on], pBl := some on, blt := on } :=
  if_pos h

theorem State.switchBacklight_of_not_hasBl {s : State} (h : s.cfg.hasBl = false) (on : Bool) :
    s.switchBacklight on = s :=
  if_neg (ne_true_of_eq_false h)

/-- Settles O58, by whether a backlight pin is configured. -/
theorem backlightSwitchDrivesItsPin : Obligations.BacklightSwitchDrivesItsPin := by
  unfold Obligations.BacklightSwitchDrivesItsPin
  intro s
  rw [exec_blon, exec_bloff]
  refine ⟨fun hpin => ?_, fun hnone => ?_⟩
  · rw [State.switchBacklight_of_hasBl hpin, State.switchBacklight_of_hasBl hpin]
    exact ⟨rfl, rfl⟩
  · rw [State.switchBacklight_of_not_hasBl hnone, State.switchBacklight_of_not_hasBl hnone]
    exact ⟨rfl, rfl⟩

end Sys2Proof.Machine
end

section
/-! PROOFS. Totality (spec/60_exceptions.md R220): an operation ends in a next state and leaves the request
port as it found it, and so does every word that the block can be handed but a 16-bit value that is no
command frame (log entry 7). -/

namespace Sys2Proof.Machine

/-! The port under an operation (R34, R258). -/

/-- An operation gives the port back as it was: it would have ended with any other port put there. -/
theorem exec_samePort {i : Instr} {s t : State} (h : exec i s = .next t) : SamePort s t := by
  have hwith := exec_withPort i s s.inputs s.busy
  rw [s.withPort_self, h] at hwith
  have hport : t = t.withPort s.inputs s.busy := Host.Outcome.next.inj hwith
  obtain ⟨hcfg, -⟩ := (exec_effect h).traceExtends
  rw [hport]
  exact ⟨hcfg, rfl, rfl⟩

/-! The words that the decoder rejects (R74, R76). -/

/-- A request word is an operation, or its opcode is reserved. -/
theorem decodeRequest_cases (w : Req) :
    (∃ i, decodeRequest w = .ok i) ∨ decodeRequest w = .error (.reservedOpcode (Req.opc w)) := by
  by_cases hopc : Req.opc w ∈ listedOpcodes
  · obtain ⟨i, hdec, -⟩ := reencodes_of_listed hopc
    exact .inl ⟨i, hdec⟩
  · exact .inr (decodeRequest_reserved hopc)

theorem decodeFrame_of_padding {v : BitVec 16} (h : v.extractLsb' 0 4 = 0#4) :
    decodeFrame v = .ok (.cmdframe (v.extractLsb' 12 4) (v.extractLsb' 4 8)) := if_pos h

/-! Words carried out to their end. -/

/-- A request word is carried out from every state: its operation ends, and a reserved one does nothing. -/
theorem runWord_req_completes (w : Req) (s : State) :
    ∃ t, runWord (.req w) s = .next t ∧ SamePort s t := by
  obtain ⟨i, hdec⟩ | hdec := decodeRequest_cases w
  · obtain ⟨t, hexec, -⟩ := exec_completes i s
    exact ⟨t, (runWord_of_decode_ok (w := .req w) hdec s).trans hexec, exec_samePort hexec⟩
  · exact ⟨s, runWord_of_decode_error (w := .req w) hdec s, rfl, rfl, rfl⟩

theorem runWord_wire_completes {v : BitVec 16} (h : v.extractLsb' 0 4 = 0#4) (s : State) :
    ∃ t, runWord (.wire v) s = .next t := by
  obtain ⟨t, hexec, -⟩ := exec_completes (.cmdframe (v.extractLsb' 12 4) (v.extractLsb' 4 8)) s
  exact ⟨t, (runWord_of_decode_ok (w := .wire v) (decodeFrame_of_padding h) s).trans hexec⟩

/-! Steps (R258). -/

/-- A word that is carried out to its end leaves a ready block ready. -/
theorem step_of_runWord_next {s u : State} {w : FetchWord} {rest : List Input} (hb : s.busy = false)
    (hin : s.inputs = .word w :: rest) (hrun : runWord w (s.take rest) = .next u) :
    step s = .next u.release := by
  rw [step_of_word_ready hb hin, hrun]
  rfl

/-- A ready block takes a request word, leaves what waits behind it, and is ready again. -/
theorem step_of_req_ready {s : State} {w : Req} {rest : List Input} (hb : s.busy = false)
    (hin : s.inputs = .word (.req w) :: rest) :
    ∃ t, step s = .next t ∧ t.inputs = rest ∧ t.busy = false := by
  obtain ⟨u, hrun, -, -, hinputs⟩ := runWord_req_completes w (s.take rest)
  exact ⟨u.release, step_of_runWord_next hb hin hrun, hinputs, rfl⟩

theorem step_of_wire_ready {s : State} {v : BitVec 16} {rest : List Input} (hb : s.busy = false)
    (hin : s.inputs = .word (.wire v) :: rest) (hpad : v.extractLsb' 0 4 = 0#4) :
    ∃ t, step s = .next t := by
  obtain ⟨u, hrun⟩ := runWord_wire_completes hpad (s.take rest)
  exact ⟨u.release, step_of_runWord_next hb hin hrun⟩

/-- A step ends in a next state, by what is presented next: nothing, reset, or a word to a block that is
busy or ready. -/
theorem step_completes {s : State}
    (hwire : ∀ (v : BitVec 16) (rest : List Input),
      s.inputs = .word (.wire v) :: rest → v.extractLsb' 0 4 = 0#4) : ∃ t, step s = .next t := by
  match hin : s.inputs with
  | [] => exact ⟨s, step_of_no_inputs hin⟩
  | .reset presented :: rest => exact ⟨_, step_of_reset hin⟩
  | .word w :: rest =>
    cases hb : s.busy with
    | true => exact ⟨s, step_of_word_busy hb hin⟩
    | false =>
      cases w with
      | req w =>
        obtain ⟨t, hstep, -⟩ := step_of_req_ready hb hin
        exact ⟨t, hstep⟩
      | wire v => exact step_of_wire_ready hb hin (hwire v rest hin)

/-- Settles O12: the type of faults is empty, every operation completes, and every word but the excepted
one is an operation or a reserved request. -/
theorem everyOperationRunsToItsEnd : Obligations.EveryOperationRunsToItsEnd := by
  unfold Obligations.EveryOperationRunsToItsEnd
  refine ⟨nofun, fun i s => ?_, fun _ _ _ => step_of_req_ready, fun _ => step_completes⟩
  obtain ⟨t, hexec, -⟩ := exec_completes i s
  exact ⟨t, hexec⟩

end Sys2Proof.Machine
end

section
/-! PROOFS. Reset and the request port (spec/70_reset_and_hazards.md): a request waits while the block is
busy (R258), asserting reset runs the init sequence to the state after reset (R240 to R244), and the
requests that wait are carried out one after another, the first one first (R264; spec/20_memory.md R59). -/

namespace Sys2Proof.Machine

/-! Waiting and idling (R258). -/

/-- Settles O8, by what is presented next. -/
theorem requestWaitsWhileBusy : Obligations.RequestWaitsWhileBusy := by
  unfold Obligations.RequestWaitsWhileBusy
  exact ⟨fun _ _ _ => step_of_word_busy, fun _ => step_of_no_inputs⟩

/-! What stays the same over two steps. -/

theorem SameLatches.trans {s t u : State} (h : SameLatches s t) (k : SameLatches t u) : SameLatches s u :=
  ⟨k.1.trans h.1, k.2.trans h.2⟩

theorem SamePort.trans {s t u : State} (h : SamePort s t) (k : SamePort t u) : SamePort s u :=
  ⟨k.1.trans h.1, k.2.1.trans h.2.1, k.2.2.trans h.2.2⟩

/-! The reset sequence (R240 to R244). -/

/-- A command frame emits the events of its two bytes (R170). -/
theorem State.sendCmd_emits (s : State) (operand : Byte) :
    Emits (frameEvents s.cfg (cmdWire s.cfg.cmdType operand)) s (s.sendCmd operand) := by
  rw [cmdWire_eq_wireBytes]
  exact s.wrFrame_emits _ 2

/-- Command frames sent one after another emit their events in the same order. -/
theorem State.foldl_sendCmd_emits (operands : List Byte) (s : State) :
    Emits (operands.flatMap fun o => frameEvents s.cfg (cmdWire s.cfg.cmdType o)) s
      (operands.foldl State.sendCmd s) := by
  induction operands generalizing s with
  | nil => exact .refl s
  | cons o rest ih =>
    have hfirst := s.sendCmd_emits o
    have hrest := ih (s.sendCmd o)
    rw [hfirst.cfg] at hrest
    exact hfirst.trans hrest

/-- Command frames leave the control latches and the port alone. -/
theorem State.foldl_sendCmd_keeps (operands : List Byte) (s : State) :
    SameLatches s (operands.foldl State.sendCmd s) ∧ SamePort s (operands.foldl State.sendCmd s) := by
  induction operands generalizing s with
  | nil => exact ⟨⟨rfl, rfl⟩, rfl, rfl, rfl⟩
  | cons o rest ih =>
    obtain ⟨-, -, hlatches, hport⟩ := s.sendCmd_leaves o
    obtain ⟨hlatches', hport'⟩ := ih (s.sendCmd o)
    exact ⟨hlatches.trans hlatches', hport.trans hport'⟩

/-- Reset starts an empty trace and emits exactly the init sequence (R241, R243). -/
theorem State.restart_emits (s : State) : Emits (initEvents s.cfg) s.resetStart s.restart := by
  have hsequence := State.foldl_sendCmd_emits s.cfg.cmdInit.toList s.resetStart
  have hlatch (p : Pin) : s.restart.latch p = s.resetStart.initSequence.latch p := by cases p <;> rfl
  exact ⟨hsequence.cfg, hsequence.out, fun p => (hlatch p).trans (hsequence.latch p)⟩

/-- The init sequence drives every pin to its level in the table of R35. -/
theorem State.restart_latch (s : State) (p : Pin) : s.restart.latch p = (State.resetOf s.cfg).latch p := by
  have hundriven : s.resetStart.latch p = none := by cases p <;> rfl
  rw [s.restart_emits.latch, hundriven, Option.or_none]
  exact (State.resetOf_latchesFollowTrace s.cfg p).symm

/-- A state with the entries of the table of R35 is the state after reset, up to the staging register, the
frame counter and the port, which the table leaves free. -/
theorem State.eq_resetOf {t : State} {c : WFConfig} (hcfg : t.cfg = c) (hmem : t.mem = [])
    (hdisp : t.disp = true) (hblt : t.blt = false) (hlatch : ∀ p, t.latch p = (State.resetOf c).latch p)
    (hout : t.out = initEvents c) (hbusy : t.busy = false) :
    t = { State.resetOf c with stg := t.stg, sn := t.sn, frames := t.frames, inputs := t.inputs } := by
  have hcs : t.pCs = resetCs c := hlatch .cs
  have hclk : t.pClk = resetClk c := hlatch .clk
  have hdata : t.pData = resetData c := hlatch .data
  have hbl : t.pBl = none := hlatch .bl
  cases t
  rw [State.resetOf, State.mk.injEq]
  exact ⟨hcfg, hmem, hdisp, hblt, hcs, hclk, hdata, hbl, hout, rfl, rfl, hbusy, rfl, rfl⟩

/-- From every state the reset sequence reaches the state after reset, and what waits still waits. -/
theorem State.restart_eq_resetOf (s : State) :
    s.restart = { State.resetOf s.cfg with
      stg := s.restart.stg, sn := s.restart.sn, frames := s.restart.frames, inputs := s.inputs } := by
  obtain ⟨⟨-, hblt⟩, -, -, hinputs⟩ := State.foldl_sendCmd_keeps s.cfg.cmdInit.toList s.resetStart
  have hwaits : s.restart.inputs = s.inputs := hinputs
  rw [← hwaits]
  exact State.eq_resetOf s.restart_cfg (State.foldl_sendCmd_mem _ s.resetStart) rfl hblt s.restart_latch
    s.restart_emits.out rfl

/-- Settles O10: the step of a reset is the sequence, and the sequence ends in the table of R35. -/
theorem resetSequenceReachesResetState : Obligations.ResetSequenceReachesResetState := by
  unfold Obligations.ResetSequenceReachesResetState
  intro s presented rest hin
  exact ⟨_, step_of_reset hin, State.restart_eq_resetOf { s with inputs := rest }⟩

/-! Requests in order (R59, R264). -/

/-- Carrying out a request word is applying the request. -/
theorem runWord_req_eq_apply (w : Req) (s : State) : runWord (.req w) s = s.apply w := by
  obtain ⟨i, hdec⟩ | hdec := decodeRequest_cases w
  · rw [runWord_of_decode_ok (w := .req w) hdec, State.apply, hdec]
  · rw [runWord_of_decode_error (w := .req w) hdec, State.apply, hdec]
    rfl

/-- A ready block applies the first waiting request as if nothing waited, is ready again, and what waited
behind the request still waits. -/
theorem step_withPort_req {s u : State} {w : Req} (happly : s.apply w = .next u) (rest : List Input) :
    step (s.withPort (.word (.req w) :: rest) false) = .next (u.withPort rest false) := by
  have hrun : runWord (.req w) (s.withPort rest true) = .next (u.withPort rest true) := by
    rw [runWord_req_eq_apply, s.apply_withPort, happly]
    rfl
  exact step_of_runWord_next (s := s.withPort (.word (.req w) :: rest) false) rfl rfl hrun

/-- `k + 1` steps are one step and then `k` steps, if the first step answers a next state. -/
theorem run_succ_of_step {s u : State} (h : step s = .next u) (k : Nat) :
    core.run (k + 1) s = core.run k u := by
  have hstep : core.step s = .next u := h
  simp only [Host.Core.run, hstep]

/-- From a ready block as many steps as requests wait apply them in order, whatever waits behind them. -/
theorem run_applies_all (ws : List Req) (later : List Input) (s : State) :
    ∃ t, s.applyAll ws = .next t
      ∧ core.run ws.length (s.withPort (ws.map (fun w => Input.word (.req w)) ++ later) false) =
          .next (t.withPort later false)
      ∧ SamePort s t := by
  induction ws generalizing s with
  | nil => exact ⟨s, rfl, rfl, rfl, rfl, rfl⟩
  | cons w ws ih =>
    obtain ⟨u, hfirst, hport⟩ := runWord_req_completes w s
    rw [runWord_req_eq_apply] at hfirst
    obtain ⟨t, hall, hrun, hport'⟩ := ih u
    refine ⟨t, ?_, (run_succ_of_step (step_withPort_req hfirst _) ws.length).trans hrun,
      hport.trans hport'⟩
    rw [State.applyAll, hfirst]
    exact hall

/-- Settles O13: a ready block is its own state with the waiting words put at its port. -/
theorem requestsDrainInOrder : Obligations.RequestsDrainInOrder := by
  unfold Obligations.RequestsDrainInOrder
  intro ws later s hready hin
  obtain ⟨t, hall, hrun, hcfg, hbusy, hinputs⟩ := run_applies_all ws later (s.withPort [] false)
  have hself : s.withPort s.inputs false = s := by rw [← hready, s.withPort_self]
  rw [State.withPort_withPort, ← hin, hself] at hrun
  exact ⟨t, hall, hrun, hbusy, hinputs, hcfg⟩

end Sys2Proof.Machine
end
